-- ==== Sys2Proof/Word.lean ====
section
/-! DEFINITION. The word types of the block (00_scope.md R9: a byte is 8 bits, bit 0 the least significant; every value is unsigned). -/

namespace Sys2Proof

/-- A 4-bit field, such as a class nibble (R71). -/
abbrev Nibble := BitVec 4

/-- One byte of the serial stream (R9). -/
abbrev Byte := BitVec 8

/-- A stimulus word `S[15:0]` (R78). -/
abbrev StimWord := BitVec 16

/-- The X10 unit field: `P_UNIT_W` is 6 bits (R7, D18). -/
abbrev UnitField := BitVec 6

/-- A packed frame `W = b0 ++ b1 ++ b2 ++ b3` (R52, R70). -/
abbrev FrameWord := BitVec 32

end Sys2Proof
end

