-- ==== Sys2Proof/Config.lean ====
section
/-! DEFINITION. The implementation parameters of 00_scope.md R7: the fixed ones as constants, the ones an
implementation chooses as plain data that State carries, and `P_T_JOIN` as a constant without a body. -/

namespace Sys2Proof

/-- `P_MIN_DELAY_SRC`: the byte whose bit 4 gives `min_delay` (R7, R104; the open question of D19). -/
inductive MinDelaySrc where
  | b2
  | b1
  deriving DecidableEq, Repr

/-- The parameters of R7 that the source leaves to an implementation and that the untimed block reads.
State carries them as its own field, so a claim over all states holds for every choice (logs 1, 2, 3). -/
structure Params where
  /-- `P_RX_DEPTH`, an integer at least 1 (OPEN: D6, I1). -/
  rxDepth : Nat
  /-- `P_MIN_DELAY_SRC`, `b2` normative (D19). -/
  minDelaySrc : MinDelaySrc
  /-- `P_PORT_PATH`, an opaque string. -/
  portPath : List Char
  deriving DecidableEq, Repr

/-- Parity setting of a serial line; the source fixes "no parity" (R7, R234). -/
inductive Parity where
  | none
  | even
  | odd
  deriving DecidableEq, Repr

/-- Flow control of a serial line; the source fixes "no flow control" (R7, R234). -/
inductive FlowControl where
  | none
  | hardware
  | software
  deriving DecidableEq, Repr

/-- What a port-open request asks for (R190, R234). -/
structure PortSettings where
  path : List Char
  baud : Nat
  dataBits : Nat
  parity : Parity
  stopBits : Nat
  flow : FlowControl
  readTimeoutMs : Nat
  deriving DecidableEq, Repr

namespace Config

/-- `P_FRAME_LEN` (R7): bytes in a frame. -/
def frameLen : Nat := 4

/-- `P_BAUD` (R7). -/
def baud : Nat := 4800

/-- `P_T_READ` (R7, R231, C6): one second, in milliseconds. -/
def tReadMs : Nat := 1000

/-- One less than `P_T_JOIN` in milliseconds. `P_T_JOIN` is OPEN (D13, I2): the source gives no value, and neither does the
model. UNVERIFIED, safe: nothing can be proved of the number (log 12). -/
opaque tJoinPredMs : Nat

/-- `P_T_JOIN` (R7, R232): a positive duration, in milliseconds. -/
def tJoinMs : Nat := tJoinPredMs + 1

end Config

end Sys2Proof
end

