-- ==== Sys2Proof/Syntax.lean ====
section
/-! DEFINITION. The instructions: one constructor for each of the 39 rows of spec/opcode_table.json (30_encoding.md R74, R78,
R80 and the internal steps of 44_acquisition.md and 45_lifecycle.md), and the codes that a decoder reads. -/

namespace Sys2Proof

/-- The free bits of a frame of a class SEC_n (R71): the class nibble is the constructor, bits 6, 5, 4, 3 and 1 of the
function byte are zero. -/
structure SecFrame where
  /-- `b0[3:0]`, the high half of the address (R102). -/
  addrHi : Nibble
  /-- `b1[3:0]`, the low half of the address (R102). -/
  addrLo : Nibble
  /-- `b2[7]` (R105). -/
  closed : Bool
  /-- `b2[2]`: allowed by the mask, read by no rule (R110). -/
  bit2 : Bool
  /-- `b2[0]` (R103). -/
  lowBattery : Bool
  /-- `b3`: read by no rule (R110). -/
  tail : Byte
  deriving DecidableEq, Repr

/-- One constructor per row of the opcode table. -/
inductive Instr where
  -- frame classes SEC_0 to SEC_F (R74 row 1)
  | sec0 (f : SecFrame)
  | sec1 (f : SecFrame)
  | sec2 (f : SecFrame)
  | sec3 (f : SecFrame)
  | sec4 (f : SecFrame)
  | sec5 (f : SecFrame)
  | sec6 (f : SecFrame)
  | sec7 (f : SecFrame)
  | sec8 (f : SecFrame)
  | sec9 (f : SecFrame)
  | secA (f : SecFrame)
  | secB (f : SecFrame)
  | secC (f : SecFrame)
  | secD (f : SecFrame)
  | secE (f : SecFrame)
  | secF (f : SecFrame)
  -- the other frame classes (R74 rows 2 to 8)
  | dropSecMask (b0 b1 b2 b3 : Byte)
  | dropChecksum (b0 b1 b2 b3 : Byte)
  | x10Off19 (b0 : Byte)
  | x10On11 (b0 : Byte)
  | x10Off (b0 b2 : Byte)
  | x10On (b0 b2 : Byte)
  | dropUnsupportedCmd (b0 b2 : Byte)
  -- stimuli (R78)
  | rx (b : Byte)
  | exp
  | ioerr
  | conn
  | openOk
  | openFail
  | disc
  | joinTo
  | ack
  | rst
  -- a word that spells no stimulus (R80)
  | reservedStim (w : StimWord)
  -- internal steps (R161 to R164, R198)
  | loopTestRun
  | loopTestExit
  | byteTake
  | frameDone
  | joinDone
  deriving DecidableEq, Repr

/-- The internal steps, which have no stimulus word (R78). -/
inductive InternalStep where
  | loopTestRun
  | loopTestExit
  | byteTake
  | frameDone
  | joinDone
  deriving DecidableEq, Repr

/-- What the machine decodes: a stimulus word, a whole frame, or an internal step, which has no bits. -/
inductive Code where
  | stim (w : StimWord)
  | frame (w : FrameWord)
  | internal (k : InternalStep)
  deriving DecidableEq, Repr

end Sys2Proof
end

