-- ==== Sys2Proof/WellFormed.lean ====
section
/-! DEFINITION. The checks an instruction's operands meet: the side conditions of the decode-class map (30_encoding.md R74)
and of the reserved stimulus words (R80). -/

namespace Sys2Proof

/-- R80: a reserved operation, a non-zero `S[11:8]`, or a non-zero operand on an operation other than `RX`. -/
def reservedWord (w : StimWord) : Bool :=
  let op := w.extractLsb' 12 4
  decide (op = 0x0#4 ∨ (0xA#4 ≤ op ∧ op ≤ 0xE#4)) ||
    decide (w.extractLsb' 8 4 ≠ 0#4) ||
    (decide (op ≠ 0x1#4) && decide (w.extractLsb' 0 8 ≠ 0#8))

/-- The side condition of each row; rows whose operands are all free have none. -/
def Instr.wellFormed : Instr → Bool
  | .sec0 _ | .sec1 _ | .sec2 _ | .sec3 _ | .sec4 _ | .sec5 _ | .sec6 _ | .sec7 _ => true
  | .sec8 _ | .sec9 _ | .secA _ | .secB _ | .secC _ | .secD _ | .secE _ | .secF _ => true
  | .dropSecMask b0 b1 b2 _ =>
      decide (b0.extractLsb' 4 4 = b1.extractLsb' 4 4) && decide (b2 &&& 0x7A#8 ≠ 0#8)
  | .dropChecksum b0 b1 b2 b3 =>
      decide (b0.extractLsb' 4 4 ≠ b1.extractLsb' 4 4) && !(decide (b1 = ~~~b0) && decide (b3 = ~~~b2))
  | .x10Off19 _ => true
  | .x10On11 _ => true
  | .x10Off _ b2 => !b2.getLsbD 7 && b2.getLsbD 5
  | .x10On _ b2 => !b2.getLsbD 7 && !b2.getLsbD 5
  | .dropUnsupportedCmd _ b2 => b2.getLsbD 7 && decide (b2 ≠ 0x98#8) && decide (b2 ≠ 0x88#8)
  | .rx _ | .exp | .ioerr | .conn | .openOk | .openFail | .disc | .joinTo | .ack | .rst => true
  | .reservedStim w => reservedWord w
  | .loopTestRun | .loopTestExit | .byteTake | .frameDone | .joinDone => true

end Sys2Proof
end

