-- ==== Sys2Proof/Decode.lean ====
section
/-! DEFINITION. The decoder of frames and stimulus words (30_encoding.md R70 to R76, R78, R80), total on every word, and the
encoder, written from the same tables. -/

namespace Sys2Proof

/-- Why a byte sequence is no frame. -/
inductive DecodeError where
  /-- Raised by `decodeFrameBytes`: not exactly four bytes. Safe: R70, such a sequence never reaches a decoder. -/
  | frameLength (n : Nat)
  deriving DecidableEq, Repr

/-- `W = b0 ++ b1 ++ b2 ++ b3` (R52). -/
def packFrame (b0 b1 b2 b3 : Byte) : FrameWord := b0 ++ b1 ++ b2 ++ b3

/-- `b0 = W[31:24]` (R52). -/
def frameB0 (w : FrameWord) : Byte := w.extractLsb' 24 8

/-- `b1 = W[23:16]` (R52). -/
def frameB1 (w : FrameWord) : Byte := w.extractLsb' 16 8

/-- `b2 = W[15:8]` (R52). -/
def frameB2 (w : FrameWord) : Byte := w.extractLsb' 8 8

/-- `b3 = W[7:0]` (R52). -/
def frameB3 (w : FrameWord) : Byte := w.extractLsb' 0 8

/-- The upper nibble of a byte: a class nibble (R71). -/
def hiNibble (b : Byte) : Nibble := b.extractLsb' 4 4

/-- The lower nibble of a byte: half of a security address (R71). -/
def loNibble (b : Byte) : Nibble := b.extractLsb' 0 4

/-- The row SEC_n of a class nibble (R74 row 1). -/
def secInstr (n : Nibble) (f : SecFrame) : Instr :=
  match n.toNat with
  | 0 => .sec0 f
  | 1 => .sec1 f
  | 2 => .sec2 f
  | 3 => .sec3 f
  | 4 => .sec4 f
  | 5 => .sec5 f
  | 6 => .sec6 f
  | 7 => .sec7 f
  | 8 => .sec8 f
  | 9 => .sec9 f
  | 10 => .secA f
  | 11 => .secB f
  | 12 => .secC f
  | 13 => .secD f
  | 14 => .secE f
  | _ => .secF f

/-- The operands of a SEC_n frame (R71). -/
def secFields (w : FrameWord) : SecFrame where
  addrHi := loNibble (frameB0 w)
  addrLo := loNibble (frameB1 w)
  closed := (frameB2 w).getLsbD 7
  bit2 := (frameB2 w).getLsbD 2
  lowBattery := (frameB2 w).getLsbD 0
  tail := frameB3 w

/-- The decode-class map of R74: the first row whose condition holds. -/
def decodeFrame (w : FrameWord) : Instr :=
  if hiNibble (frameB0 w) = hiNibble (frameB1 w) then
    if frameB2 w &&& 0x7A#8 = 0#8 then secInstr (hiNibble (frameB0 w)) (secFields w)
    else .dropSecMask (frameB0 w) (frameB1 w) (frameB2 w) (frameB3 w)
  else if ¬ (frameB1 w = ~~~(frameB0 w) ∧ frameB3 w = ~~~(frameB2 w)) then
    .dropChecksum (frameB0 w) (frameB1 w) (frameB2 w) (frameB3 w)
  else if frameB2 w = 0x98#8 then .x10Off19 (frameB0 w)
  else if frameB2 w = 0x88#8 then .x10On11 (frameB0 w)
  else if (frameB2 w).getLsbD 7 then .dropUnsupportedCmd (frameB0 w) (frameB2 w)
  else if (frameB2 w).getLsbD 5 then .x10Off (frameB0 w) (frameB2 w)
  else .x10On (frameB0 w) (frameB2 w)

/-- Four bytes in arrival order are a frame; any other length is rejected by name (R70). -/
def decodeFrameBytes : List Byte → Except DecodeError Instr
  | [b0, b1, b2, b3] => .ok (decodeFrame (packFrame b0 b1 b2 b3))
  | bs => .error (.frameLength bs.length)

/-- The stimulus table of R78; every word that spells no stimulus is the row RESERVED_STIM (R80). -/
def decodeStim (w : StimWord) : Instr :=
  if reservedWord w then .reservedStim w
  else
    match (w.extractLsb' 12 4).toNat with
    | 0x1 => .rx (w.extractLsb' 0 8)
    | 0x2 => .exp
    | 0x3 => .ioerr
    | 0x4 => .conn
    | 0x5 => .openOk
    | 0x6 => .openFail
    | 0x7 => .disc
    | 0x8 => .joinTo
    | 0x9 => .ack
    | 0xF => .rst
    | _ => .reservedStim w

/-- The row of an internal step. -/
def decodeInternal : InternalStep → Instr
  | .loopTestRun => .loopTestRun
  | .loopTestExit => .loopTestExit
  | .byteTake => .byteTake
  | .frameDone => .frameDone
  | .joinDone => .joinDone

/-- The decoder, total on every code. -/
def decode : Code → Instr
  | .stim w => decodeStim w
  | .frame w => decodeFrame w
  | .internal k => decodeInternal k

/-- The instruction of a word of the opcode table: `stim16` rows have 16 bits, `frame32` rows 32. -/
def decodeTableWord (nbits w : Nat) : Option Instr :=
  if nbits = 16 then some (decode (.stim (BitVec.ofNat 16 w)))
  else if nbits = 32 then some (decode (.frame (BitVec.ofNat 32 w)))
  else none

/-- The function byte of a SEC_n frame (R71): bit 7, bits 6 to 3 zero, bit 2, bit 1 zero, bit 0. -/
def secFunctionByte (f : SecFrame) : Byte :=
  BitVec.ofBool f.closed ++ 0#4 ++ BitVec.ofBool f.bit2 ++ 0#1 ++ BitVec.ofBool f.lowBattery

/-- The word of a SEC_n frame (R71). -/
def secWord (n : Nibble) (f : SecFrame) : FrameWord :=
  packFrame (n ++ f.addrHi) (n ++ f.addrLo) (secFunctionByte f) f.tail

/-- The word of a frame whose two checksum pairs hold (R72). -/
def x10Word (b0 b2 : Byte) : FrameWord := packFrame b0 (~~~b0) b2 (~~~b2)

/-- A stimulus word: operation, zero, operand (R78). -/
def stimWord (op : Nibble) (operand : Byte) : StimWord := op ++ 0#4 ++ operand

/-- The code of an instruction. -/
def encode : Instr → Code
  | .sec0 f => .frame (secWord 0x0#4 f)
  | .sec1 f => .frame (secWord 0x1#4 f)
  | .sec2 f => .frame (secWord 0x2#4 f)
  | .sec3 f => .frame (secWord 0x3#4 f)
  | .sec4 f => .frame (secWord 0x4#4 f)
  | .sec5 f => .frame (secWord 0x5#4 f)
  | .sec6 f => .frame (secWord 0x6#4 f)
  | .sec7 f => .frame (secWord 0x7#4 f)
  | .sec8 f => .frame (secWord 0x8#4 f)
  | .sec9 f => .frame (secWord 0x9#4 f)
  | .secA f => .frame (secWord 0xA#4 f)
  | .secB f => .frame (secWord 0xB#4 f)
  | .secC f => .frame (secWord 0xC#4 f)
  | .secD f => .frame (secWord 0xD#4 f)
  | .secE f => .frame (secWord 0xE#4 f)
  | .secF f => .frame (secWord 0xF#4 f)
  | .dropSecMask b0 b1 b2 b3 => .frame (packFrame b0 b1 b2 b3)
  | .dropChecksum b0 b1 b2 b3 => .frame (packFrame b0 b1 b2 b3)
  | .x10Off19 b0 => .frame (x10Word b0 0x98#8)
  | .x10On11 b0 => .frame (x10Word b0 0x88#8)
  | .x10Off b0 b2 => .frame (x10Word b0 b2)
  | .x10On b0 b2 => .frame (x10Word b0 b2)
  | .dropUnsupportedCmd b0 b2 => .frame (x10Word b0 b2)
  | .rx b => .stim (stimWord 0x1#4 b)
  | .exp => .stim (stimWord 0x2#4 0#8)
  | .ioerr => .stim (stimWord 0x3#4 0#8)
  | .conn => .stim (stimWord 0x4#4 0#8)
  | .openOk => .stim (stimWord 0x5#4 0#8)
  | .openFail => .stim (stimWord 0x6#4 0#8)
  | .disc => .stim (stimWord 0x7#4 0#8)
  | .joinTo => .stim (stimWord 0x8#4 0#8)
  | .ack => .stim (stimWord 0x9#4 0#8)
  | .rst => .stim (stimWord 0xF#4 0#8)
  | .reservedStim w => .stim w
  | .loopTestRun => .internal .loopTestRun
  | .loopTestExit => .internal .loopTestExit
  | .byteTake => .internal .byteTake
  | .frameDone => .internal .frameDone
  | .joinDone => .internal .joinDone

end Sys2Proof
end

