-- ==== Sys2Proof/Machine/State.lean ====
section
/-! DEFINITION. The machine's state as plain data (10_state.md), its values at reset (R35), and the reasons a step can stop. -/

namespace Sys2Proof.Machine

/-- The lifecycle state (R21). The codes 5 to 7 are left out of the type (R36, log 13). -/
inductive Phase where
  | idle
  | connecting
  | running
  | stopping
  | closed
  deriving DecidableEq, Repr

/-- The worker's position in its read loop (R22). -/
inductive WState where
  | wNone
  | wCheck
  | wRead
  | wEmit
  deriving DecidableEq, Repr

/-- The command of an X10 event (R77). The decoder never produces `dim` or `bright` (R129). -/
inductive Cmd where
  | on
  | off
  | dim
  | bright
  deriving DecidableEq, Repr

/-- The contact state of a security event (R77, R105). -/
inductive SecState where
  | opened
  | closed
  deriving DecidableEq, Repr

/-- The device type of a security event (R77, R106). -/
inductive DevType where
  | ds10a
  deriving DecidableEq, Repr

/-- A decoded X10 command (R77). `house` is the letter index, 0 for A; `unit` has `P_UNIT_W` = 6 bits. -/
structure X10Event where
  house : Fin 16
  unit : Option (UnitField)
  cmd : Cmd
  deriving DecidableEq, Repr

/-- A decoded security report (R77). -/
structure SecurityEvent where
  dev : DevType
  address : Byte
  state : SecState
  lowBattery : Bool
  minDelay : Bool
  deriving DecidableEq, Repr

/-- What the sink is called with (R77). -/
inductive Event where
  | x10 (e : X10Event)
  | security (e : SecurityEvent)
  deriving DecidableEq, Repr

/-- The diagnostic codes of R222. -/
inductive DiagCode where
  | dropChecksum
  | dropSecMask
  | dropUnsupportedCmd
  | ioFatal
  deriving DecidableEq, Repr

/-- Why the X10 decoder fails, both cases of the source's `InvalidFrame` (R126). -/
inductive InvalidReason where
  | checksum
  | unsupportedCmd
  deriving DecidableEq, Repr

/-- An observation record (R81). -/
inductive Record where
  | evt (e : Event)
  | diag (c : DiagCode)
  | portOpenReq
  | portClose
  | doneConn (ok : Bool)
  | doneDisc
  deriving DecidableEq, Repr

/-- The frame buffer `fb[0..3]`: each cell a byte or no value (R30). -/
structure FrameBuffer where
  c0 : Option Byte
  c1 : Option Byte
  c2 : Option Byte
  c3 : Option Byte
  deriving DecidableEq, Repr

/-- The frame buffer with no value in any cell (R35, R161). -/
def FrameBuffer.empty : FrameBuffer := ⟨none, none, none, none⟩

/-- Which of two enabled steps is taken next (R33, R172). -/
inductive Turn where
  | internal
  | stimulus
  deriving DecidableEq, Repr

/-- The state tuple of R36 with its output trace, and the model's own fields: the parameters and the inputs of the step
relation that R33 lists. -/
structure State where
  phase : Phase
  wstate : WState
  running : Bool
  portOpen : Bool
  discPending : Bool
  fatalReported : Bool
  /-- Head first (R28). -/
  rxq : List Byte
  cnt : Fin 5
  fb : FrameBuffer
  evt : Option Event
  /-- Output, oldest record first: no rule reads it (R33, R81). -/
  trace : List Record
  /-- The model's own: the parameters of R7. No step changes them (R8). -/
  cfg : Params
  /-- The model's own: the stimulus words still to be applied (R33, log 4). DESIGN CHOICE. -/
  script : List StimWord
  /-- The model's own: one entry for each coming race between an internal step and a stimulus; when it is empty the
  internal step goes first, as in R172 (log 4). DESIGN CHOICE. -/
  sched : List Turn
  deriving DecidableEq, Repr

/-- The machine stops with a fault. -/
inductive Fault where
  /-- Raised by FRAME_DONE when a frame-buffer cell holds no value (R30, I12). Safe: the spec names this fault, and no
  state that meets the invariant reaches it. -/
  | emptyFrameCell
  deriving DecidableEq, Repr

/-- No step: the reasons say who refuses. -/
inductive Refusal where
  /-- An instruction with no meaning yet. Raised by no arm of this model. Safe. -/
  | notModelled (mnemonic : String)
  /-- Raised by every instruction whose guard does not hold: such a step does not exist, and a stimulus applied then is a
  bench error (R78, I18; opening of 44_acquisition.md). Safe. -/
  | notEnabled (mnemonic : String)
  /-- Raised by RESERVED_STIM: the word spells no stimulus (R80, I17). Safe. -/
  | reservedStimulus (w : StimWord)
  /-- Raised by `Phase.ofCode` on the unused codes 5 to 7 (R21, I17). Safe. -/
  | unusedPhase (code : BitVec 3)
  /-- Raised by the timed wrapper alone: a timer's expiry before its time (R231, R232). Safe. -/
  | notDue (mnemonic : String)
  /-- Raised by the timed wrapper alone: time may not pass an expiry that is due (R231, R232), nor the end
  of a disconnect's wait (R257). Safe. -/
  | deadlinePassed
  deriving DecidableEq, Repr

/-- The parameters that `State.reset` starts with. `rxDepth`: DESIGN CHOICE 16 (log 1), unsafe. `minDelaySrc`: normative
(R7, log 2). `portPath`: DESIGN CHOICE, the empty string (log 3), unsafe. -/
def resetParams : Params where
  rxDepth := 16
  minDelaySrc := .b2
  portPath := []

/-- The machine right after reset: R35 for the spec's own state; an empty output; no stimulus waiting. -/
def State.reset : State where
  phase := .idle
  wstate := .wNone
  running := false
  portOpen := false
  discPending := false
  fatalReported := false
  rxq := []
  cnt := 0
  fb := FrameBuffer.empty
  evt := none
  trace := []
  cfg := resetParams
  script := []
  sched := []

end Sys2Proof.Machine
end

