-- ==== Sys2Proof/Machine/Flags.lean ====
section
/-! DEFINITION. Status outputs (10_state.md R27) with the encodings of R21 and R22, and the guard of every step: the
enabling conditions of 30_encoding.md R78 and of the internal steps R161 to R164 and R198. -/

namespace Sys2Proof.Machine

/-- The 3-bit code of the phase (R21). -/
def Phase.code : Phase → BitVec 3
  | .idle => 0
  | .connecting => 1
  | .running => 2
  | .stopping => 3
  | .closed => 4

/-- The phase of a 3-bit code; the unused codes are refused by name (R21, I17). -/
def Phase.ofCode (c : BitVec 3) : Except Refusal Phase :=
  match c.toNat with
  | 0 => .ok .idle
  | 1 => .ok .connecting
  | 2 => .ok .running
  | 3 => .ok .stopping
  | 4 => .ok .closed
  | _ => .error (.unusedPhase c)

/-- The 2-bit code of the worker's position (R22). -/
def WState.code : WState → BitVec 2
  | .wNone => 0
  | .wCheck => 1
  | .wRead => 2
  | .wEmit => 3

/-- The worker position of a 2-bit code (R22). -/
def WState.ofCode (c : BitVec 2) : WState :=
  match c.toNat with
  | 0 => .wNone
  | 1 => .wCheck
  | 2 => .wRead
  | _ => .wEmit

/-- `cmd_busy`: a host command is outstanding (R27). -/
def State.cmdBusy (s : State) : Bool :=
  decide (s.phase = .connecting) || (decide (s.phase = .stopping) && s.discPending)

/-- `worker_alive` (R27). -/
def State.workerAlive (s : State) : Bool := decide (s.wstate ≠ .wNone)

/-- What the host can see (R27). `rxq` is hidden (R28, log 14). -/
structure StatusOutputs where
  phase : BitVec 3
  wstate : BitVec 2
  running : Bool
  portOpen : Bool
  discPending : Bool
  fatalReported : Bool
  cnt : Fin 5
  fb : FrameBuffer
  evt : Option Event
  cmdBusy : Bool
  workerAlive : Bool
  deriving DecidableEq, Repr

/-- The status outputs of a state (R27). -/
def State.status (s : State) : StatusOutputs where
  phase := s.phase.code
  wstate := s.wstate.code
  running := s.running
  portOpen := s.portOpen
  discPending := s.discPending
  fatalReported := s.fatalReported
  cnt := s.cnt
  fb := s.fb
  evt := s.evt
  cmdBusy := s.cmdBusy
  workerAlive := s.workerAlive

/-- Guard of LOOP_TEST_RUN (R161). -/
def State.canLoopRun (s : State) : Bool := decide (s.wstate = .wCheck) && s.running

/-- Guard of LOOP_TEST_EXIT (R162). -/
def State.canLoopExit (s : State) : Bool := decide (s.wstate = .wCheck) && !s.running

/-- Guard of BYTE_TAKE (R163). -/
def State.canByteTake (s : State) : Bool :=
  decide (s.wstate = .wRead) && decide (s.cnt < 4) && !s.rxq.isEmpty

/-- Guard of FRAME_DONE and of every frame class (R164). -/
def State.canFrameDone (s : State) : Bool := decide (s.wstate = .wRead) && decide (s.cnt = 4)

/-- Guard of JOIN_DONE (R198). -/
def State.canJoinDone (s : State) : Bool :=
  decide (s.phase = .stopping) && s.discPending && decide (s.wstate = .wNone)

/-- Enabling condition of `EXP` (R78, R165). -/
def State.canExp (s : State) : Bool :=
  decide (s.wstate = .wRead) && decide (s.cnt < 4) && s.rxq.isEmpty

/-- Enabling condition of `IOERR` (R78, R167). -/
def State.canIoerr (s : State) : Bool := decide (s.wstate = .wRead) && decide (s.cnt < 4)

/-- Enabling condition of `CONN` and `DISC` (R78). -/
def State.canCommand (s : State) : Bool := !s.cmdBusy

/-- Enabling condition of `OPEN_OK` and `OPEN_FAIL` (R78). -/
def State.canOpen (s : State) : Bool := decide (s.phase = .connecting)

/-- Enabling condition of `JOIN_TO` (R78, R199). -/
def State.canJoinTo (s : State) : Bool :=
  decide (s.phase = .stopping) && s.discPending && decide (s.wstate ≠ .wNone)

/-- Enabling condition of `ACK` (R78, R166). -/
def State.canAck (s : State) : Bool := decide (s.wstate = .wEmit)

end Sys2Proof.Machine
end

