-- ==== Sys2Proof/Machine/Operands.lean ====
section
/-! DEFINITION. Operand assembly (30_encoding.md R73): the fields of a frame that the decoders of 41_security.md and
42_x10.md compute, the bit reversal, the house-code ROM and the unit adder. -/

namespace Sys2Proof.Machine

/-- CLASSIFY, the security-candidate test (R100). -/
def cand (b0 b1 : Byte) : Bool := decide (b0 >>> 4 = b1 >>> 4)

/-- SEC_VALIDATE, the function-byte mask (R101). -/
def secMaskOk (b2 : Byte) : Bool := decide (b2 &&& ~~~0x85#8 = 0#8)

/-- SEC_ADDRESS (R102). -/
def secAddress (b0 b1 : Byte) : Byte := ((b0 &&& 0x0F#8) <<< 4) ||| (b1 &&& 0x0F#8)

/-- SEC_LOW_BATTERY (R103). -/
def secLowBattery (b2 : Byte) : Bool := b2.getLsbD 0

/-- SEC_MIN_DELAY (R104): which byte's bit 4 is read is `P_MIN_DELAY_SRC`. -/
def secMinDelay (src : MinDelaySrc) (b1 b2 : Byte) : Bool :=
  match src with
  | .b2 => !b2.getLsbD 4
  | .b1 => !b1.getLsbD 4

/-- SEC_STATE (R105). -/
def secState (b2 : Byte) : SecState := if b2.getLsbD 7 then .closed else .opened

/-- SEC_DEVICE_TYPE (R106): no frame bit selects it. -/
def secDeviceType : DevType := .ds10a

/-- CHECKSUM (R120): both sums are exact, in 9 bits. -/
def ck (b0 b1 b2 b3 : Byte) : Bool :=
  decide (b0.setWidth 9 + b1.setWidth 9 = 0x0FF#9) && decide (b2.setWidth 9 + b3.setWidth 9 = 0x0FF#9)

/-- REV8 (R121): bit k of the result is bit 7 - k of `v`. -/
def rev8 (v : Byte) : Byte :=
  BitVec.ofBool (v.getLsbD 0) ++ BitVec.ofBool (v.getLsbD 1) ++ BitVec.ofBool (v.getLsbD 2) ++
    BitVec.ofBool (v.getLsbD 3) ++ BitVec.ofBool (v.getLsbD 4) ++ BitVec.ofBool (v.getLsbD 5) ++
    BitVec.ofBool (v.getLsbD 6) ++ BitVec.ofBool (v.getLsbD 7)

/-- HC_LUT, the house-code ROM (R32, R122): letter indices, A = 0, by the 4-bit code. -/
def hcLut : Vector (Fin 16) 16 := #v[12, 4, 2, 10, 14, 6, 0, 8, 13, 5, 3, 11, 15, 7, 1, 9]

/-- `MemRead(HC_LUT, i, 1)`: total, the index has exactly 4 bits (R51). -/
def memReadHcLut (i : Nibble) : Fin 16 := hcLut[i.toNat]'(i.isLt)

/-- HOUSE_CODE (R123). -/
def house (b0 : Byte) : Fin 16 := memReadHcLut ((rev8 b0 &&& 0x0F#8).setWidth 4)

/-- UNIT, the unit adder (R124): exact, since the sum is at most 44. -/
def unitBase (r0 r2 : Byte) : UnitField :=
  (r2 >>> 3).setWidth 6 + ((r2 &&& 0x02#8) <<< 1).setWidth 6 + ((r0 &&& 0x20#8) >>> 2).setWidth 6 + 1#6

/-- COMMAND, the command resolution in priority order (R125). -/
def command (r2 : Byte) (u : UnitField) :
    Except InvalidReason (Cmd × UnitField) :=
  if r2 = 0x19#8 then .ok (.off, u)
  else if r2 = 0x11#8 then .ok (.on, u + 1#6)
  else if r2 &&& 0x05#8 = 0x04#8 then .ok (.off, u)
  else if r2 &&& 0x05#8 = 0x00#8 then .ok (.on, u)
  else .error .unsupportedCmd

end Sys2Proof.Machine
end

