-- ==== Sys2Proof/Machine/Ops.lean ====
section
/-! DEFINITION. The named operations over the state elements (00_scope.md R11): the queue, the frame buffer, the records,
the result of a frame, the close action, and the fatal path, which is the block's one error entry (60_exceptions.md R226). -/

namespace Sys2Proof.Machine

/-- `fb[i] <- b`. The index 4 names no cell, and the guard of BYTE_TAKE excludes it (R163). -/
def FrameBuffer.put (f : FrameBuffer) (i : Fin 5) (b : Byte) : FrameBuffer :=
  match i with
  | 0 => { f with c0 := some b }
  | 1 => { f with c1 := some b }
  | 2 => { f with c2 := some b }
  | 3 => { f with c3 := some b }
  | 4 => f

/-- The four bytes of a full frame buffer (R164); none while a cell holds no value. -/
def FrameBuffer.bytes (f : FrameBuffer) : Option (Byte × Byte × Byte × Byte) :=
  match f.c0, f.c1, f.c2, f.c3 with
  | some b0, some b1, some b2, some b3 => some (b0, b1, b2, b3)
  | _, _, _, _ => none

/-- `emit(o)` (R11, R81). -/
def State.emit (s : State) (o : Record) : State := { s with trace := s.trace ++ [o] }

/-- `QPush(b)` (R11, R160). -/
def State.qPush (s : State) (b : Byte) : State := { s with rxq := s.rxq ++ [b] }

/-- The receiver's rule for one byte (R160): lost with no open port, lost at a full queue, otherwise queued. -/
def State.receive (s : State) (b : Byte) : State :=
  if !s.portOpen then s
  else if s.rxq.length < s.cfg.rxDepth then s.qPush b
  else s

/-- `cnt <- 0; fb <- [None, None, None, None]` (R161, R164, R165, R167). -/
def State.clearWindow (s : State) : State := { s with cnt := 0, fb := FrameBuffer.empty }

/-- `let b := QPop(); fb[cnt] <- Some b; cnt <- cnt + 1` (R163). Nothing is taken from an empty queue. -/
def State.takeByte (s : State) : State :=
  match s.rxq with
  | [] => s
  | b :: rest => { s with rxq := rest, fb := s.fb.put s.cnt b, cnt := s.cnt + 1 }

/-- The effect of a routed frame (R164): the event is handed to the sink, or the drop is recorded. -/
def State.finishFrame (s : State) (r : Except DiagCode Event) : State :=
  match r with
  | .ok e => { s.clearWindow with evt := some e, wstate := .wEmit }.emit (.evt e)
  | .error c => { s.clearWindow with wstate := .wCheck }.emit (.diag c)

/-- The step of a complete frame with the given result, under the guard of R164; refused by name otherwise. -/
def frameStep (mnemonic : String) (r : Except DiagCode Event) (s : State) : Host.Outcome State Fault Refusal :=
  if s.canFrameDone then .next (s.finishFrame r) else .refused (.notEnabled mnemonic)

/-- A step under a guard; refused by name where the guard does not hold (R78, I18). -/
def guarded (mnemonic : String) (g : Bool) (t : State) : Host.Outcome State Fault Refusal :=
  if g then .next t else .refused (.notEnabled mnemonic)

/-- The close action `Close()` (R198), which the join timeout uses too (R199). -/
def State.closePort (s : State) : State :=
  ({ s with portOpen := false, rxq := [], discPending := false, phase := .closed }.emit .portClose).emit .doneDisc

/-- The fatal path (R167, R226): the partial frame is lost, `running` is cleared, the worker is gone, a running instance
goes to Stopping with its port open, and DIAG(4) is emitted the first time only. There is no return from it (R227). -/
def State.takeFatal (s : State) : State :=
  let t : State :=
    { s.clearWindow with
      running := false
      wstate := .wNone
      phase := if s.phase = .running then .stopping else s.phase
      fatalReported := true }
  if s.fatalReported then t else t.emit (.diag .ioFatal)

/-- What a port-open request asks for (R190, R234): the fixed line settings and the configured path. The record itself
carries no payload (D28). -/
def State.portSettings (s : State) : PortSettings where
  path := s.cfg.portPath
  baud := Config.baud
  dataBits := 8
  parity := .none
  stopBits := 1
  flow := .none
  readTimeoutMs := Config.tReadMs

/-- The device path is set from outside the block before a connect (R8, R252 step 2); no step does it (log 3). -/
def State.configurePath (s : State) (path : List Char) : State := { s with cfg := { s.cfg with portPath := path } }

/-- Every state element at its reset value (R35, R250); the trace, the parameters and the inputs are no state elements and
are kept (R33, R250). -/
def State.toReset (s : State) : State :=
  { State.reset with trace := s.trace, cfg := s.cfg, script := s.script, sched := s.sched }

end Sys2Proof.Machine
end

