-- ==== Sys2Proof/Machine/Security.lean ====
section
/-! DEFINITION. The security decoder (41_security.md) and the meanings of the frame classes SEC_0 to SEC_F. -/

namespace Sys2Proof.Machine

/-- SEC_DECODE (R107). The tail byte is not read (R110). -/
def decodeSecurity (src : MinDelaySrc) (b0 b1 b2 _b3 : Byte) : Option SecurityEvent :=
  if !cand b0 b1 then none
  else if !secMaskOk b2 then none
  else
    some
      { dev := secDeviceType
        address := secAddress b0 b1
        state := secState b2
        lowBattery := secLowBattery b2
        minDelay := secMinDelay src b1 b2 }

/-- The event of a frame of class SEC_n, from the operands of its format (R71, R102 to R106). -/
def secEvent (src : MinDelaySrc) (n : Nibble) (f : SecFrame) : SecurityEvent where
  dev := secDeviceType
  address := f.addrHi ++ f.addrLo
  state := if f.closed then .closed else .opened
  lowBattery := f.lowBattery
  minDelay := secMinDelay src (n ++ f.addrLo) (secFunctionByte f)

/-- SEC_0 (R74 row 1, R107): a security report with class nibble 0x0. -/
def execSec0 (f : SecFrame) (s : State) : Host.Outcome State Fault Refusal :=
  frameStep "SEC_0" (.ok (.security (secEvent s.cfg.minDelaySrc 0x0#4 f))) s

/-- SEC_1 (R74 row 1, R107): a security report with class nibble 0x1. -/
def execSec1 (f : SecFrame) (s : State) : Host.Outcome State Fault Refusal :=
  frameStep "SEC_1" (.ok (.security (secEvent s.cfg.minDelaySrc 0x1#4 f))) s

/-- SEC_2 (R74 row 1, R107): a security report with class nibble 0x2. -/
def execSec2 (f : SecFrame) (s : State) : Host.Outcome State Fault Refusal :=
  frameStep "SEC_2" (.ok (.security (secEvent s.cfg.minDelaySrc 0x2#4 f))) s

/-- SEC_3 (R74 row 1, R107): a security report with class nibble 0x3. -/
def execSec3 (f : SecFrame) (s : State) : Host.Outcome State Fault Refusal :=
  frameStep "SEC_3" (.ok (.security (secEvent s.cfg.minDelaySrc 0x3#4 f))) s

/-- SEC_4 (R74 row 1, R107): a security report with class nibble 0x4. -/
def execSec4 (f : SecFrame) (s : State) : Host.Outcome State Fault Refusal :=
  frameStep "SEC_4" (.ok (.security (secEvent s.cfg.minDelaySrc 0x4#4 f))) s

/-- SEC_5 (R74 row 1, R107): a security report with class nibble 0x5. -/
def execSec5 (f : SecFrame) (s : State) : Host.Outcome State Fault Refusal :=
  frameStep "SEC_5" (.ok (.security (secEvent s.cfg.minDelaySrc 0x5#4 f))) s

/-- SEC_6 (R74 row 1, R107): a security report with class nibble 0x6. -/
def execSec6 (f : SecFrame) (s : State) : Host.Outcome State Fault Refusal :=
  frameStep "SEC_6" (.ok (.security (secEvent s.cfg.minDelaySrc 0x6#4 f))) s

/-- SEC_7 (R74 row 1, R107): a security report with class nibble 0x7. -/
def execSec7 (f : SecFrame) (s : State) : Host.Outcome State Fault Refusal :=
  frameStep "SEC_7" (.ok (.security (secEvent s.cfg.minDelaySrc 0x7#4 f))) s

/-- SEC_8 (R74 row 1, R107): a security report with class nibble 0x8. -/
def execSec8 (f : SecFrame) (s : State) : Host.Outcome State Fault Refusal :=
  frameStep "SEC_8" (.ok (.security (secEvent s.cfg.minDelaySrc 0x8#4 f))) s

/-- SEC_9 (R74 row 1, R107): a security report with class nibble 0x9. -/
def execSec9 (f : SecFrame) (s : State) : Host.Outcome State Fault Refusal :=
  frameStep "SEC_9" (.ok (.security (secEvent s.cfg.minDelaySrc 0x9#4 f))) s

/-- SEC_A (R74 row 1, R107): a security report with class nibble 0xA. -/
def execSecA (f : SecFrame) (s : State) : Host.Outcome State Fault Refusal :=
  frameStep "SEC_A" (.ok (.security (secEvent s.cfg.minDelaySrc 0xA#4 f))) s

/-- SEC_B (R74 row 1, R107): a security report with class nibble 0xB. -/
def execSecB (f : SecFrame) (s : State) : Host.Outcome State Fault Refusal :=
  frameStep "SEC_B" (.ok (.security (secEvent s.cfg.minDelaySrc 0xB#4 f))) s

/-- SEC_C (R74 row 1, R107): a security report with class nibble 0xC. -/
def execSecC (f : SecFrame) (s : State) : Host.Outcome State Fault Refusal :=
  frameStep "SEC_C" (.ok (.security (secEvent s.cfg.minDelaySrc 0xC#4 f))) s

/-- SEC_D (R74 row 1, R107): a security report with class nibble 0xD. -/
def execSecD (f : SecFrame) (s : State) : Host.Outcome State Fault Refusal :=
  frameStep "SEC_D" (.ok (.security (secEvent s.cfg.minDelaySrc 0xD#4 f))) s

/-- SEC_E (R74 row 1, R107): a security report with class nibble 0xE. -/
def execSecE (f : SecFrame) (s : State) : Host.Outcome State Fault Refusal :=
  frameStep "SEC_E" (.ok (.security (secEvent s.cfg.minDelaySrc 0xE#4 f))) s

/-- SEC_F (R74 row 1, R107): a security report with class nibble 0xF. -/
def execSecF (f : SecFrame) (s : State) : Host.Outcome State Fault Refusal :=
  frameStep "SEC_F" (.ok (.security (secEvent s.cfg.minDelaySrc 0xF#4 f))) s

end Sys2Proof.Machine
end

