-- ==== Sys2Proof/Machine/X10.lean ====
section
/-! DEFINITION. The X10 decoder (42_x10.md) and the meanings of the frame classes that yield an X10 event. -/

namespace Sys2Proof.Machine

/-- X10_DECODE (R126): the checksum before everything else. -/
def decodeX10 (b0 b1 b2 b3 : Byte) : Except InvalidReason X10Event :=
  if !ck b0 b1 b2 b3 then .error .checksum
  else
    match command (rev8 b2) (unitBase (rev8 b0) (rev8 b2)) with
    | .ok (c, u) => .ok { house := house b0, unit := some u, cmd := c }
    | .error r => .error r

/-- The event of an X10 class: house and unit from `b0` and `b2`, and the command its row names (R74 rows 4 to 7). -/
def x10Event (b0 : Byte) (u : UnitField) (c : Cmd) : Event :=
  .x10 { house := house b0, unit := some u, cmd := c }

/-- X10_OFF_19 (R74 row 4, R125 case 1): `b2 = 0x98`, unit unchanged. -/
def execX10Off19 (b0 : Byte) (s : State) : Host.Outcome State Fault Refusal :=
  frameStep "X10_OFF_19" (.ok (x10Event b0 (unitBase (rev8 b0) (rev8 0x98#8)) .off)) s

/-- X10_ON_11 (R74 row 5, R125 case 2): `b2 = 0x88`, unit incremented by 1. -/
def execX10On11 (b0 : Byte) (s : State) : Host.Outcome State Fault Refusal :=
  frameStep "X10_ON_11" (.ok (x10Event b0 (unitBase (rev8 b0) (rev8 0x88#8) + 1#6) .on)) s

/-- X10_OFF (R74 row 6, R125 case 3). -/
def execX10Off (b0 b2 : Byte) (s : State) : Host.Outcome State Fault Refusal :=
  frameStep "X10_OFF" (.ok (x10Event b0 (unitBase (rev8 b0) (rev8 b2)) .off)) s

/-- X10_ON (R74 row 7, R125 case 4). -/
def execX10On (b0 b2 : Byte) (s : State) : Host.Outcome State Fault Refusal :=
  frameStep "X10_ON" (.ok (x10Event b0 (unitBase (rev8 b0) (rev8 b2)) .on)) s

end Sys2Proof.Machine
end

