-- ==== Sys2Proof/Machine/Router.lean ====
section
/-! DEFINITION. The frame router (43_router.md) and the meanings of the frame classes that are dropped. -/

namespace Sys2Proof.Machine

/-- DROP_CODE (R151). -/
def dropCode (b0 b1 b2 : Byte) (reason : InvalidReason) : DiagCode :=
  if cand b0 b1 && !secMaskOk b2 then .dropSecMask
  else
    match reason with
    | .checksum => .dropChecksum
    | .unsupportedCmd => .dropUnsupportedCmd

/-- ROUTE (R150): the security decoder first, then the X10 decoder; one event or one drop code. -/
def route (src : MinDelaySrc) (b0 b1 b2 b3 : Byte) : Except DiagCode Event :=
  match decodeSecurity src b0 b1 b2 b3 with
  | some e => .ok (.security e)
  | none =>
    match decodeX10 b0 b1 b2 b3 with
    | .ok x => .ok (.x10 x)
    | .error r => .error (dropCode b0 b1 b2 r)

/-- DROP_SEC_MASK (R74 row 2, R151): the frame bytes are not recorded (R222). -/
def execDropSecMask (_b0 _b1 _b2 _b3 : Byte) (s : State) : Host.Outcome State Fault Refusal :=
  frameStep "DROP_SEC_MASK" (.error .dropSecMask) s

/-- DROP_CHECKSUM (R74 row 3, R151). -/
def execDropChecksum (_b0 _b1 _b2 _b3 : Byte) (s : State) : Host.Outcome State Fault Refusal :=
  frameStep "DROP_CHECKSUM" (.error .dropChecksum) s

/-- DROP_UNSUPPORTED_CMD (R74 row 8, R125 case 5, R151). -/
def execDropUnsupportedCmd (_b0 _b2 : Byte) (s : State) : Host.Outcome State Fault Refusal :=
  frameStep "DROP_UNSUPPORTED_CMD" (.error .dropUnsupportedCmd) s

end Sys2Proof.Machine
end

