-- ==== Sys2Proof/Machine/Acquisition.lean ====
section
/-! DEFINITION. The acquisition loop (44_acquisition.md): the receiver, the worker's internal steps, the window's expiry, the
sink's return and the fatal error. -/

namespace Sys2Proof.Machine

/-- RX (R160): always enabled, no record. -/
def execRx (b : Byte) (s : State) : Host.Outcome State Fault Refusal :=
  .next (s.receive b)

/-- LOOP_TEST_RUN (R161): open a read window. -/
def execLoopTestRun (s : State) : Host.Outcome State Fault Refusal :=
  guarded "LOOP_TEST_RUN" s.canLoopRun { s.clearWindow with wstate := .wRead }

/-- LOOP_TEST_EXIT (R162): the worker exits. -/
def execLoopTestExit (s : State) : Host.Outcome State Fault Refusal :=
  guarded "LOOP_TEST_EXIT" s.canLoopExit { s with wstate := .wNone }

/-- BYTE_TAKE (R163). -/
def execByteTake (s : State) : Host.Outcome State Fault Refusal :=
  guarded "BYTE_TAKE" s.canByteTake s.takeByte

/-- FRAME_DONE (R164): route the four bytes; a cell with no value is the fault of I12. -/
def execFrameDone (s : State) : Host.Outcome State Fault Refusal :=
  match s.fb.bytes with
  | some (b0, b1, b2, b3) => frameStep "FRAME_DONE" (route s.cfg.minDelaySrc b0 b1 b2 b3) s
  | none => if s.canFrameDone then .fault .emptyFrameCell else .refused (.notEnabled "FRAME_DONE")

/-- EXP (R165): the short read, with no record and no decode. -/
def execExp (s : State) : Host.Outcome State Fault Refusal :=
  guarded "EXP" s.canExp { s.clearWindow with wstate := .wCheck }

/-- ACK (R166): the sink returns. -/
def execAck (s : State) : Host.Outcome State Fault Refusal :=
  guarded "ACK" s.canAck { s with evt := none, wstate := .wCheck }

/-- IOERR (R167): the fatal path. -/
def execIoerr (s : State) : Host.Outcome State Fault Refusal :=
  guarded "IOERR" s.canIoerr s.takeFatal

end Sys2Proof.Machine
end

