-- ==== Sys2Proof/Machine/Lifecycle.lean ====
section
/-! DEFINITION. The connection lifecycle (45_lifecycle.md), reset (70_reset_and_hazards.md R250), and the words that spell no
stimulus (30_encoding.md R80). -/

namespace Sys2Proof.Machine

/-- CONN: CONNECT_ACCEPT from Idle (R190), CONNECT_REFUSE from every other phase (R191). -/
def execConn (s : State) : Host.Outcome State Fault Refusal :=
  guarded "CONN" s.canCommand
    (if s.phase = .idle then { s with phase := .connecting }.emit .portOpenReq
     else s.emit (.doneConn false))

/-- OPEN_OK (R192): the queue starts empty and the worker at the top of its loop. -/
def execOpenOk (s : State) : Host.Outcome State Fault Refusal :=
  guarded "OPEN_OK" s.canOpen
    ({ s with portOpen := true, rxq := [], running := true, wstate := .wCheck, phase := .running }.emit
      (.doneConn true))

/-- OPEN_FAIL (R193). -/
def execOpenFail (s : State) : Host.Outcome State Fault Refusal :=
  guarded "OPEN_FAIL" s.canOpen ({ s with phase := .idle }.emit (.doneConn false))

/-- The effect of a disconnect, by phase: DISC_IDLE (R194), DISC_RUNNING (R195), DISC_AFTER_FAULT (R196), DISC_CLOSED (R197).
In phase Connecting a host command is outstanding and the guard of `DISC` does not hold. -/
def State.disconnect (s : State) : State :=
  match s.phase with
  | .idle => { s with phase := .closed }.emit .doneDisc
  | .running => { s with running := false, discPending := true, phase := .stopping }
  | .stopping => { s with discPending := true }
  | .closed => s.emit .doneDisc
  | .connecting => s

/-- DISC (R194 to R197). -/
def execDisc (s : State) : Host.Outcome State Fault Refusal :=
  guarded "DISC" s.canCommand s.disconnect

/-- JOIN_DONE (R198): the worker has exited, and the disconnect completes. -/
def execJoinDone (s : State) : Host.Outcome State Fault Refusal :=
  guarded "JOIN_DONE" s.canJoinDone s.closePort

/-- JOIN_TO (R199): the disconnect completes and leaves the worker as it is. -/
def execJoinTo (s : State) : Host.Outcome State Fault Refusal :=
  guarded "JOIN_TO" s.canJoinTo s.closePort

/-- RST (R250): a fresh instance, with no record. -/
def execRst (s : State) : Host.Outcome State Fault Refusal :=
  .next s.toReset

/-- RESERVED_STIM (R80): refused by name, never a block behaviour. -/
def execReservedStim (w : StimWord) (_s : State) : Host.Outcome State Fault Refusal :=
  .refused (.reservedStimulus w)

end Sys2Proof.Machine
end

