-- ==== Sys2Proof/Machine/Dispatch.lean ====
section
/-! DEFINITION. One arm per instruction: each calls its meaning. -/

namespace Sys2Proof.Machine

def exec (i : Instr) (s : State) : Host.Outcome State Fault Refusal :=
  match i with
  | .sec0 f => Sys2Proof.Machine.execSec0 f s
  | .sec1 f => Sys2Proof.Machine.execSec1 f s
  | .sec2 f => Sys2Proof.Machine.execSec2 f s
  | .sec3 f => Sys2Proof.Machine.execSec3 f s
  | .sec4 f => Sys2Proof.Machine.execSec4 f s
  | .sec5 f => Sys2Proof.Machine.execSec5 f s
  | .sec6 f => Sys2Proof.Machine.execSec6 f s
  | .sec7 f => Sys2Proof.Machine.execSec7 f s
  | .sec8 f => Sys2Proof.Machine.execSec8 f s
  | .sec9 f => Sys2Proof.Machine.execSec9 f s
  | .secA f => Sys2Proof.Machine.execSecA f s
  | .secB f => Sys2Proof.Machine.execSecB f s
  | .secC f => Sys2Proof.Machine.execSecC f s
  | .secD f => Sys2Proof.Machine.execSecD f s
  | .secE f => Sys2Proof.Machine.execSecE f s
  | .secF f => Sys2Proof.Machine.execSecF f s
  | .dropSecMask b0 b1 b2 b3 => Sys2Proof.Machine.execDropSecMask b0 b1 b2 b3 s
  | .dropChecksum b0 b1 b2 b3 => Sys2Proof.Machine.execDropChecksum b0 b1 b2 b3 s
  | .x10Off19 b0 => Sys2Proof.Machine.execX10Off19 b0 s
  | .x10On11 b0 => Sys2Proof.Machine.execX10On11 b0 s
  | .x10Off b0 b2 => Sys2Proof.Machine.execX10Off b0 b2 s
  | .x10On b0 b2 => Sys2Proof.Machine.execX10On b0 b2 s
  | .dropUnsupportedCmd b0 b2 => Sys2Proof.Machine.execDropUnsupportedCmd b0 b2 s
  | .rx b => Sys2Proof.Machine.execRx b s
  | .exp => Sys2Proof.Machine.execExp s
  | .ioerr => Sys2Proof.Machine.execIoerr s
  | .conn => Sys2Proof.Machine.execConn s
  | .openOk => Sys2Proof.Machine.execOpenOk s
  | .openFail => Sys2Proof.Machine.execOpenFail s
  | .disc => Sys2Proof.Machine.execDisc s
  | .joinTo => Sys2Proof.Machine.execJoinTo s
  | .ack => Sys2Proof.Machine.execAck s
  | .rst => Sys2Proof.Machine.execRst s
  | .reservedStim w => Sys2Proof.Machine.execReservedStim w s
  | .loopTestRun => Sys2Proof.Machine.execLoopTestRun s
  | .loopTestExit => Sys2Proof.Machine.execLoopTestExit s
  | .byteTake => Sys2Proof.Machine.execByteTake s
  | .frameDone => Sys2Proof.Machine.execFrameDone s
  | .joinDone => Sys2Proof.Machine.execJoinDone s

end Sys2Proof.Machine
end

