-- ==== Sys2Proof/Machine/Fetch.lean ====
section
/-! DEFINITION. What the next step runs: the frame in a full frame buffer, another internal step, or the next stimulus word
(44_acquisition.md R172, 60_exceptions.md R224, log 4). -/

namespace Sys2Proof.Machine

/-- The enabled internal step. The guards exclude each other; the order is that of R172. -/
def State.nextInternal (s : State) : Option InternalStep :=
  if s.canFrameDone then some .frameDone
  else if s.canByteTake then some .byteTake
  else if s.canLoopRun then some .loopTestRun
  else if s.canLoopExit then some .loopTestExit
  else if s.canJoinDone then some .joinDone
  else none

/-- The code of an internal step. A frame completion reads the frame itself, which its class then decodes (R164: "The
frame's class is given by 30_encoding.md rule R74"). -/
def State.internalCode (s : State) (k : InternalStep) : Code :=
  match k, s.fb.bytes with
  | .frameDone, some (b0, b1, b2, b3) => .frame (packFrame b0 b1 b2 b3)
  | k, _ => .internal k

/-- The code the next step runs, and the state with the used input taken away. Where an internal step and a stimulus are
both there, `sched` chooses, and without a choice the internal step goes first (R172). None: nothing is enabled and no
stimulus waits. -/
def State.fetch (s : State) : Option (Code × State) :=
  match s.nextInternal, s.script with
  | none, [] => none
  | none, w :: ws => some (.stim w, { s with script := ws })
  | some k, [] => some (s.internalCode k, s)
  | some k, w :: ws =>
    match s.sched with
    | [] => some (s.internalCode k, s)
    | .internal :: ts => some (s.internalCode k, { s with sched := ts })
    | .stimulus :: ts => some (.stim w, { s with script := ws, sched := ts })

/-- `s` with a stimulus word where the next step fetches it; a choice is added only where the fetch needs one. -/
def State.withStim (s : State) (w : StimWord) : State :=
  { s with
    script := w :: s.script
    sched := if s.nextInternal.isSome then .stimulus :: s.sched else s.sched }

/-- `s` with a frame in the frame buffer of a full read window; a choice is added only where the fetch needs one. -/
def State.withFrame (s : State) (w : FrameWord) : State :=
  { s with
    wstate := .wRead
    cnt := 4
    fb := ⟨some (frameB0 w), some (frameB1 w), some (frameB2 w), some (frameB3 w)⟩
    sched := if s.script.isEmpty then s.sched else .internal :: s.sched }

/-- The state whose next step runs the instruction of a table word: `frame32` rows have 32 bits, `stim16` rows 16 (log 11). -/
def State.placeWord (s : State) (nbits w : Nat) : State :=
  if nbits = 32 then s.withFrame (BitVec.ofNat 32 w) else s.withStim (BitVec.ofNat 16 w)

end Sys2Proof.Machine
end

