-- ==== Sys2Proof/Machine/Step.lean ====
section
/-! DEFINITION. One step: fetch, decode, run. -/

namespace Sys2Proof.Machine

/-- One step of the block. With nothing enabled and no stimulus waiting the block waits: the state stays (log 5). DESIGN
CHOICE. -/
def step (s : State) : Host.Outcome State Fault Refusal :=
  match s.fetch with
  | none => .next s
  | some (c, t) => exec (decode c) t

/-- `s` with the instruction of a table word where the next step fetches it. -/
def State.withFetchWord (s : State) (nbits w : Nat) : State := s.placeWord nbits w

end Sys2Proof.Machine
end

