-- ==== Sys2Proof/Machine/Records.lean ====
section
/-! DEFINITION. The words of the block's outputs: the event word (30_encoding.md R77), the diagnostic codes (R222), the
record word (R81), and the renderings at the sink boundary (R108, R127). -/

namespace Sys2Proof.Machine

/-- `E[14:13]` of an X10 event (R77). -/
def Cmd.code : Cmd → BitVec 2
  | .on => 0
  | .off => 1
  | .dim => 2
  | .bright => 3

/-- `E[11:8]` of a security event (R77). -/
def DevType.code : DevType → Nibble
  | .ds10a => 0

/-- The name of a device type (R106). -/
def DevType.name : DevType → List Char
  | .ds10a => ['d', 's', '1', '0', 'a']

/-- The X10 variant of the event word (R77). -/
def X10Event.word (e : X10Event) : BitVec 16 :=
  0#1 ++ e.cmd.code ++ BitVec.ofBool e.unit.isSome ++ e.unit.getD 0#6 ++ BitVec.ofNat 4 e.house.val ++ 0#2

/-- The security variant of the event word (R77). -/
def SecurityEvent.word (e : SecurityEvent) : BitVec 16 :=
  1#1 ++ BitVec.ofBool (decide (e.state = .closed)) ++ BitVec.ofBool e.lowBattery ++
    BitVec.ofBool e.minDelay ++ e.dev.code ++ e.address

/-- The event word `E[15:0]` (R77). -/
def Event.word : Event → BitVec 16
  | .x10 e => e.word
  | .security e => e.word

/-- The payload of a DIAG record (R222). -/
def DiagCode.code : DiagCode → BitVec 16
  | .dropChecksum => 1
  | .dropSecMask => 2
  | .dropUnsupportedCmd => 3
  | .ioFatal => 4

/-- The record word `O[19:16] ++ O[15:0]` (R81). -/
def Record.word : Record → BitVec 20
  | .evt e => 0x1#4 ++ e.word
  | .diag c => 0x2#4 ++ c.code
  | .portOpenReq => 0x3#4 ++ 0#16
  | .portClose => 0x4#4 ++ 0#16
  | .doneConn ok => 0x5#4 ++ (if ok then 1#16 else 0#16)
  | .doneDisc => 0x6#4 ++ 1#16

/-- The ASCII code of a lowercase hexadecimal digit (R108). -/
def hexDigit (v : Nibble) : Byte :=
  if v ≤ 9#4 then 0x30#8 + v.setWidth 8 else 0x61#8 + (v.setWidth 8 - 10#8)

/-- ADDRESS_RENDER (R108): two ASCII characters, always with the leading zero. -/
def renderAddress (a : Byte) : List Byte := [hexDigit (hiNibble a), hexDigit (loNibble a)]

/-- HOUSE_RENDER (R127): one ASCII character from 'A' to 'P'. -/
def renderHouse (h : Fin 16) : Byte := 0x41#8 + BitVec.ofNat 8 h.val

end Sys2Proof.Machine
end

