-- ==== Sys2Proof/Machine/Script.lean ====
section
/-! DEFINITION. The stimulus script syntax (30_encoding.md R79): one stimulus a line, hexadecimal or decimal operands,
comments, and the pseudo-instructions with their expansions. -/

namespace Sys2Proof.Machine

/-- One line of a script. -/
inductive ScriptLine where
  /-- An empty line or a comment. -/
  | blank
  /-- A stimulus written with its own mnemonic. -/
  | plain (i : Instr)
  | frame (a b c d : Byte)
  | x10f (x y : Byte)
  | secf (h : Nibble) (a f t : Byte)
  | start
  | stop
  deriving DecidableEq, Repr

/-- Why a script line is no line of R79. Rejected by name, never read as a stimulus. -/
inductive ScriptError where
  /-- Neither a mnemonic of R78 nor a pseudo-instruction of R79. -/
  | unknownMnemonic (name : List Char)
  /-- The wrong number of operands, or an operand that is no number in range. -/
  | badOperands (name : List Char)
  deriving DecidableEq, Repr

/-- The expansion of a line into stimuli (R79). -/
def ScriptLine.expand : ScriptLine → List Instr
  | .blank => []
  | .plain i => [i]
  | .frame a b c d => [.rx a, .rx b, .rx c, .rx d]
  | .x10f x y => [.rx x, .rx (~~~x), .rx y, .rx (~~~y)]
  | .secf h a f t => [.rx (h ++ hiNibble a), .rx (h ++ loNibble a), .rx f, .rx t]
  | .start => [.conn, .openOk]
  | .stop => [.disc]

/-- The part of a line before the comment (R79). -/
def dropComment : List Char → List Char
  | [] => []
  | c :: cs => if c = ';' then [] else c :: dropComment cs

/-- A character between two words of a line; the comma stands between operands (log 18). -/
def isBreak (c : Char) : Bool := c = ' ' || c = ',' || c = '\t'

/-- The words of a line, with `cur` the letters of the open word, last letter first. -/
def splitWords (cur : List Char) : List Char → List (List Char)
  | [] => if cur.isEmpty then [] else [cur.reverse]
  | c :: cs =>
    if isBreak c then
      if cur.isEmpty then splitWords [] cs else cur.reverse :: splitWords [] cs
    else splitWords (c :: cur) cs

/-- The value of a digit in base 16; none for any other character. -/
def digitValue (c : Char) : Option Nat :=
  let n := c.toNat
  if 0x30 ≤ n ∧ n ≤ 0x39 then some (n - 0x30)
  else if 0x41 ≤ n ∧ n ≤ 0x46 then some (n - 0x41 + 10)
  else if 0x61 ≤ n ∧ n ≤ 0x66 then some (n - 0x61 + 10)
  else none

/-- The value of a string of digits in a base, after the value `acc` of the digits before it. -/
def digitsValue (base acc : Nat) : List Char → Option Nat
  | [] => some acc
  | c :: cs =>
    match digitValue c with
    | some d => if d < base then digitsValue base (acc * base + d) cs else none
    | none => none

/-- A number: hexadecimal after `0x`, otherwise decimal (R79). -/
def parseNumber : List Char → Option Nat
  | [] => none
  | ['0', 'x'] => none
  | '0' :: 'x' :: cs => digitsValue 16 0 cs
  | cs => digitsValue 10 0 cs

/-- A number below `2 ^ w`. -/
def parseField (w : Nat) (cs : List Char) : Option (BitVec w) :=
  match parseNumber cs with
  | some n => if n < 2 ^ w then some (BitVec.ofNat w n) else none
  | none => none

/-- Byte operands, all or none. -/
def parseBytes : List (List Char) → Option (List Byte)
  | [] => some []
  | t :: ts =>
    match parseField 8 t, parseBytes ts with
    | some b, some bs => some (b :: bs)
    | _, _ => none

/-- A stimulus that takes no operand. -/
def plainNoOperand (name : List Char) (i : Instr) (ops : List (List Char)) : Except ScriptError ScriptLine :=
  if ops.isEmpty then .ok (.plain i) else .error (.badOperands name)

/-- One line of a script (R79). -/
def parseLine (line : List Char) : Except ScriptError ScriptLine :=
  match splitWords [] (dropComment line) with
  | [] => .ok .blank
  | name :: ops =>
    if name = "RX".toList then
      match parseBytes ops with
      | some [b] => .ok (.plain (.rx b))
      | _ => .error (.badOperands name)
    else if name = "EXP".toList then plainNoOperand name .exp ops
    else if name = "IOERR".toList then plainNoOperand name .ioerr ops
    else if name = "CONN".toList then plainNoOperand name .conn ops
    else if name = "OPEN_OK".toList then plainNoOperand name .openOk ops
    else if name = "OPEN_FAIL".toList then plainNoOperand name .openFail ops
    else if name = "DISC".toList then plainNoOperand name .disc ops
    else if name = "JOIN_TO".toList then plainNoOperand name .joinTo ops
    else if name = "ACK".toList then plainNoOperand name .ack ops
    else if name = "RST".toList then plainNoOperand name .rst ops
    else if name = "FRAME".toList then
      match parseBytes ops with
      | some [a, b, c, d] => .ok (.frame a b c d)
      | _ => .error (.badOperands name)
    else if name = "X10F".toList then
      match parseBytes ops with
      | some [x, y] => .ok (.x10f x y)
      | _ => .error (.badOperands name)
    else if name = "SECF".toList then
      match ops with
      | h :: rest =>
        match parseField 4 h, parseBytes rest with
        | some h, some [a, f, t] => .ok (.secf h a f t)
        | _, _ => .error (.badOperands name)
      | [] => .error (.badOperands name)
    else if name = "START".toList then
      if ops.isEmpty then .ok .start else .error (.badOperands name)
    else if name = "STOP".toList then
      if ops.isEmpty then .ok .stop else .error (.badOperands name)
    else .error (.unknownMnemonic name)

/-- The stimulus word of an instruction that has one (R78). -/
def stimWordOf (i : Instr) : Option StimWord :=
  match encode i with
  | .stim w => some w
  | .frame _ => none
  | .internal _ => none

/-- The stimulus words of a script, in order (R79); the first line that is none of R79 is named. -/
def assemble : List (List Char) → Except ScriptError (List StimWord)
  | [] => .ok []
  | line :: lines =>
    match parseLine line, assemble lines with
    | .error e, _ => .error e
    | .ok _, .error e => .error e
    | .ok l, .ok ws => .ok (l.expand.filterMap stimWordOf ++ ws)

/-- A state with a script's stimuli appended to those that wait (log 4). -/
def State.withScript (s : State) (ws : List StimWord) : State := { s with script := s.script ++ ws }

end Sys2Proof.Machine
end

