-- ==== Sys2Proof/Machine/Timed.lean ====
section
/-! DEFINITION. The optional timed refinement of 60_exceptions.md R231 and R232, with the bound on a disconnect's wait of
70_reset_and_hazards.md R257: a wrapper that adds a clock to the untimed step. The untimed machine is the model (R13); this file only forbids steps of it (log 12). -/

namespace Sys2Proof.Machine

/-- The untimed state, a clock in milliseconds, and the start of each timer. -/
structure TimedState where
  base : State
  now : Nat
  /-- When the open read window was opened (R231). -/
  tOpen : Nat
  /-- When the disconnect that waits began to wait (R232). -/
  tDisc : Nat
  deriving DecidableEq, Repr

/-- The start of a timed run. -/
def TimedState.reset : TimedState where
  base := State.reset
  now := 0
  tOpen := 0
  tDisc := 0

/-- The read window's time is over (R231). -/
def TimedState.windowOver (t : TimedState) : Bool := decide (t.tOpen + Config.tReadMs ≤ t.now)

/-- The join timer's time is over (R232). -/
def TimedState.joinOver (t : TimedState) : Bool := decide (t.tDisc + Config.tJoinMs ≤ t.now)

/-- `EXP` happens now: its guard holds and the window's time is over. With bytes still queued it is put off (I15). -/
def TimedState.expDue (t : TimedState) : Bool := t.base.canExp && t.windowOver

/-- A disconnect's wait is at its end, now: the join timer's time is over. With a living worker `JOIN_TO` completes it
(R232), with an exited one JOIN_DONE (R198); either way "the whole wait is bounded by `P_T_JOIN`" (R257). -/
def TimedState.joinDue (t : TimedState) : Bool :=
  decide (t.base.phase = .stopping) && t.base.discPending && t.joinOver

/-- Time passes by one millisecond, unless an expiry is due or a disconnect's wait is at its end: an expiry happens at its
time (R231, R232), and no wait outlasts `P_T_JOIN` (R257). -/
def TimedState.tick (t : TimedState) : Host.Outcome TimedState Fault Refusal :=
  if t.expDue || t.joinDue then .refused .deadlinePassed else .next { t with now := t.now + 1 }

/-- A step that starts a timer sets its start: LOOP_TEST_RUN the window (R161), DISC the wait (R195, R196). -/
def TimedState.after (t : TimedState) (i : Instr) (b : State) : TimedState where
  base := b
  now := t.now
  tOpen := if i = .loopTestRun then t.now else t.tOpen
  tDisc := if i = .disc ∧ b.discPending = true then t.now else t.tDisc

/-- One step of the block, in time: an expiry before its time is refused, every other step is the untimed one. -/
def TimedState.act (t : TimedState) : Host.Outcome TimedState Fault Refusal :=
  match t.base.fetch with
  | none => .next t
  | some (c, s) =>
    if decode c = .exp ∧ t.windowOver = false then .refused (.notDue "EXP")
    else if decode c = .joinTo ∧ t.joinOver = false then .refused (.notDue "JOIN_TO")
    else
      match Sys2Proof.Machine.exec (decode c) s with
      | .next b => .next (t.after (decode c) b)
      | .fault r => .fault r
      | .refused r => .refused r

end Sys2Proof.Machine
end

