-- ==== Sys2Proof/Safety.lean ====
section
/-! DEFINITION. What claims about the block use: the invariant of 10_state.md R34, the guard of every instruction (30_encoding.md
R78 and the internal steps), the bytes in flight (44_acquisition.md R169), the rows' fixed bits, and groups of instructions. -/

namespace Sys2Proof.Machine

/-- Which cells of the frame buffer hold a byte: exactly the first `n` (R30). -/
def FrameBuffer.filledTo (f : FrameBuffer) (n : Fin 5) : Bool :=
  (f.c0.isSome == decide (0 < n.val)) && (f.c1.isSome == decide (1 < n.val)) &&
    (f.c2.isSome == decide (2 < n.val)) && (f.c3.isSome == decide (3 < n.val))

/-- R34's eight properties, with the length bound of R28, the fill of the frame buffer (R30), the depth of R7, the empty
queue of a closed instance (R198, R160), and what `fatal_reported` says of the phase (R26, R167). -/
structure Inv (s : State) : Prop where
  running : s.phase = .running →
    s.running = true ∧ s.portOpen = true ∧ s.discPending = false ∧ s.wstate ≠ .wNone
  fresh : s.phase = .idle ∨ s.phase = .connecting →
    s.running = false ∧ s.portOpen = false ∧ s.wstate = .wNone ∧ s.rxq = []
  closed : s.phase = .closed →
    s.running = false ∧ s.portOpen = false ∧ s.discPending = false ∧ s.rxq = []
  stopping : s.phase = .stopping → s.running = false ∧ s.portOpen = true
  pending : s.discPending = true → s.phase = .stopping
  event : s.evt.isSome = true ↔ s.wstate = .wEmit
  full : s.cnt = 4 → s.wstate = .wRead
  noWindow : s.wstate ≠ .wRead → s.cnt = 0
  runningPhase : s.running = true → s.phase = .running
  queueBound : s.rxq.length ≤ s.cfg.rxDepth
  depth : 1 ≤ s.cfg.rxDepth
  cells : s.fb.filledTo s.cnt = true
  fatal : s.fatalReported = true → s.phase = .stopping ∨ s.phase = .closed

/-- What holds of the timed wrapper (log 12): the invariant of the untimed state, timers that started in the past, and a
disconnect's wait bounded by `P_T_JOIN` (R257). -/
structure TimedInv (t : TimedState) : Prop where
  base : Inv t.base
  started : t.tOpen ≤ t.now ∧ t.tDisc ≤ t.now
  wait : t.base.discPending = true → t.now ≤ t.tDisc + Config.tJoinMs

/-- The guard of each instruction: the enabling conditions of R78, of the internal steps, and of a complete frame (R164). -/
def enabled (i : Instr) (s : State) : Bool :=
  match i with
  | .sec0 _ | .sec1 _ | .sec2 _ | .sec3 _ | .sec4 _ | .sec5 _ | .sec6 _ | .sec7 _ => s.canFrameDone
  | .sec8 _ | .sec9 _ | .secA _ | .secB _ | .secC _ | .secD _ | .secE _ | .secF _ => s.canFrameDone
  | .dropSecMask _ _ _ _ | .dropChecksum _ _ _ _ | .x10Off19 _ | .x10On11 _ => s.canFrameDone
  | .x10Off _ _ | .x10On _ _ | .dropUnsupportedCmd _ _ => s.canFrameDone
  | .rx _ => true
  | .exp => s.canExp
  | .ioerr => s.canIoerr
  | .conn => s.canCommand
  | .openOk => s.canOpen
  | .openFail => s.canOpen
  | .disc => s.canCommand
  | .joinTo => s.canJoinTo
  | .ack => s.canAck
  | .rst => true
  | .reservedStim _ => false
  | .loopTestRun => s.canLoopRun
  | .loopTestExit => s.canLoopExit
  | .byteTake => s.canByteTake
  | .frameDone => s.canFrameDone
  | .joinDone => s.canJoinDone

/-- The class nibble and the free bits of an instruction of the rows SEC_0 to SEC_F (R74 row 1). -/
def secParts : Instr → Option (Nibble × SecFrame)
  | .sec0 f => some (0x0#4, f)
  | .sec1 f => some (0x1#4, f)
  | .sec2 f => some (0x2#4, f)
  | .sec3 f => some (0x3#4, f)
  | .sec4 f => some (0x4#4, f)
  | .sec5 f => some (0x5#4, f)
  | .sec6 f => some (0x6#4, f)
  | .sec7 f => some (0x7#4, f)
  | .sec8 f => some (0x8#4, f)
  | .sec9 f => some (0x9#4, f)
  | .secA f => some (0xA#4, f)
  | .secB f => some (0xB#4, f)
  | .secC f => some (0xC#4, f)
  | .secD f => some (0xD#4, f)
  | .secE f => some (0xE#4, f)
  | .secF f => some (0xF#4, f)
  | .dropSecMask _ _ _ _ | .dropChecksum _ _ _ _ | .x10Off19 _ | .x10On11 _ => none
  | .x10Off _ _ | .x10On _ _ | .dropUnsupportedCmd _ _ => none
  | .rx _ | .exp | .ioerr | .conn | .openOk | .openFail | .disc | .joinTo | .ack | .rst => none
  | .reservedStim _ | .loopTestRun | .loopTestExit | .byteTake | .frameDone | .joinDone => none

/-- The format of a row of the opcode table, with its mask and match bits where it has a word. -/
inductive RowBits where
  | frame32 (mask value : FrameWord)
  | stim16 (mask value : StimWord)
  | internal
  deriving DecidableEq, Repr

/-- The row's format, mask and match, as spec/opcode_table.json gives them. -/
def rowBits : Instr → RowBits
  | .sec0 _ => .frame32 0xF0F07A00 0x00000000
  | .sec1 _ => .frame32 0xF0F07A00 0x10100000
  | .sec2 _ => .frame32 0xF0F07A00 0x20200000
  | .sec3 _ => .frame32 0xF0F07A00 0x30300000
  | .sec4 _ => .frame32 0xF0F07A00 0x40400000
  | .sec5 _ => .frame32 0xF0F07A00 0x50500000
  | .sec6 _ => .frame32 0xF0F07A00 0x60600000
  | .sec7 _ => .frame32 0xF0F07A00 0x70700000
  | .sec8 _ => .frame32 0xF0F07A00 0x80800000
  | .sec9 _ => .frame32 0xF0F07A00 0x90900000
  | .secA _ => .frame32 0xF0F07A00 0xA0A00000
  | .secB _ => .frame32 0xF0F07A00 0xB0B00000
  | .secC _ => .frame32 0xF0F07A00 0xC0C00000
  | .secD _ => .frame32 0xF0F07A00 0xD0D00000
  | .secE _ => .frame32 0xF0F07A00 0xE0E00000
  | .secF _ => .frame32 0xF0F07A00 0xF0F00000
  | .dropSecMask _ _ _ _ => .frame32 0x00000000 0x00000000
  | .dropChecksum _ _ _ _ => .frame32 0x00000000 0x00000000
  | .x10Off19 _ => .frame32 0x0000FFFF 0x00009867
  | .x10On11 _ => .frame32 0x0000FFFF 0x00008877
  | .x10Off _ _ => .frame32 0x0000A000 0x00002000
  | .x10On _ _ => .frame32 0x0000A000 0x00000000
  | .dropUnsupportedCmd _ _ => .frame32 0x00008000 0x00008000
  | .rx _ => .stim16 0xFF00 0x1000
  | .exp => .stim16 0xFFFF 0x2000
  | .ioerr => .stim16 0xFFFF 0x3000
  | .conn => .stim16 0xFFFF 0x4000
  | .openOk => .stim16 0xFFFF 0x5000
  | .openFail => .stim16 0xFFFF 0x6000
  | .disc => .stim16 0xFFFF 0x7000
  | .joinTo => .stim16 0xFFFF 0x8000
  | .ack => .stim16 0xFFFF 0x9000
  | .rst => .stim16 0xFFFF 0xF000
  | .reservedStim _ => .stim16 0x0000 0x0000
  | .loopTestRun => .internal
  | .loopTestExit => .internal
  | .byteTake => .internal
  | .frameDone => .internal
  | .joinDone => .internal

/-- A code has the row's format and its fixed bits. -/
def RowBits.fits : RowBits → Code → Bool
  | .frame32 m v, .frame w => decide (w &&& m = v)
  | .stim16 m v, .stim w => decide (w &&& m = v)
  | .internal, .internal _ => true
  | .frame32 _ _, .stim _ => false
  | .frame32 _ _, .internal _ => false
  | .stim16 _ _, .frame _ => false
  | .stim16 _ _, .internal _ => false
  | .internal, .frame _ => false
  | .internal, .stim _ => false

/-- The bytes the frame buffer holds, in arrival order. -/
def FrameBuffer.held (f : FrameBuffer) : List Byte :=
  f.c0.toList ++ f.c1.toList ++ f.c2.toList ++ f.c3.toList

/-- Every byte that has arrived and is neither routed nor discarded, oldest first (R169). -/
def State.inFlight (s : State) : List Byte := s.fb.held ++ s.rxq

/-- The host's commands, the port's answers, the join timer and the join completion: the command unit's steps (R58, R202). -/
def isLifecycleStep : Instr → Bool
  | .conn | .openOk | .openFail | .disc | .joinTo | .joinDone => true
  | .sec0 _ | .sec1 _ | .sec2 _ | .sec3 _ | .sec4 _ | .sec5 _ | .sec6 _ | .sec7 _ => false
  | .sec8 _ | .sec9 _ | .secA _ | .secB _ | .secC _ | .secD _ | .secE _ | .secF _ => false
  | .dropSecMask _ _ _ _ | .dropChecksum _ _ _ _ | .x10Off19 _ | .x10On11 _ => false
  | .x10Off _ _ | .x10On _ _ | .dropUnsupportedCmd _ _ => false
  | .rx _ | .exp | .ioerr | .ack | .rst | .reservedStim _ => false
  | .loopTestRun | .loopTestExit | .byteTake | .frameDone => false

/-- The rows that are a complete frame: the frame classes and FRAME_DONE (R164). -/
def isFrameRow : Instr → Bool
  | .sec0 _ | .sec1 _ | .sec2 _ | .sec3 _ | .sec4 _ | .sec5 _ | .sec6 _ | .sec7 _ => true
  | .sec8 _ | .sec9 _ | .secA _ | .secB _ | .secC _ | .secD _ | .secE _ | .secF _ => true
  | .dropSecMask _ _ _ _ | .dropChecksum _ _ _ _ | .x10Off19 _ | .x10On11 _ => true
  | .x10Off _ _ | .x10On _ _ | .dropUnsupportedCmd _ _ => true
  | .frameDone => true
  | .rx _ | .exp | .ioerr | .conn | .openOk | .openFail | .disc | .joinTo | .ack | .rst => false
  | .reservedStim _ | .loopTestRun | .loopTestExit | .byteTake | .joinDone => false

end Sys2Proof.Machine
end

