-- ==== Sys2Proof/Certificates/Slice0/Obligations.lean ====
section
/-! DEFINITION. The statements about the block, each from a numbered rule of spec/ or from a section of it. -/

open Sys2Proof Sys2Proof.Machine

/-! ### Frames: the decoders and the router -/

/-- R107 with its parts R100 to R106: which frames the security decoder accepts, and every field of the report. -/
def Obligations.SecurityDecoderFields : Prop :=
  ∀ (src : MinDelaySrc) (b0 b1 b2 b3 : Byte),
    decodeSecurity src b0 b1 b2 b3 =
      if b0.toNat / 16 = b1.toNat / 16 ∧ b2.toNat &&& 0x7A = 0 then
        some
          { dev := .ds10a
            address := BitVec.ofNat 8 ((b0.toNat % 16) * 16 + b1.toNat % 16)
            state := if 128 ≤ b2.toNat then .closed else .opened
            lowBattery := decide (b2.toNat % 2 = 1)
            minDelay :=
              match src with
              | .b2 => decide (b2.toNat / 16 % 2 = 0)
              | .b1 => decide (b1.toNat / 16 % 2 = 0) }
      else none

/-- R111: no frame is a security candidate with a valid first checksum pair. -/
def Obligations.CandidateNeverChecksumValid : Prop :=
  ∀ b0 b1 b2 b3 : Byte, cand b0 b1 = true → ck b0 b1 b2 b3 = false

/-- R120: the checksum is two exact sums, and it holds exactly for complements. -/
def Obligations.ChecksumIsComplementPair : Prop :=
  ∀ b0 b1 b2 b3 : Byte,
    (ck b0 b1 b2 b3 = true ↔ b0.toNat + b1.toNat = 255 ∧ b2.toNat + b3.toNat = 255) ∧
      (ck b0 b1 b2 b3 = true ↔ b1 = ~~~b0 ∧ b3 = ~~~b2)

/-- R121: bit k of the reversal is bit 7 - k, and the reversal is its own inverse. -/
def Obligations.Rev8ReversesBits : Prop :=
  (∀ (v : Byte) (k : Fin 8), (rev8 v).getLsbD k.val = v.getLsbD (7 - k.val)) ∧
    ∀ v : Byte, rev8 (rev8 v) = v

/-- R122 and R123: the ROM by index is M E C K O G A I N F D L P H B J, the letters by raw high nibble are
M N O P C D A B E F G H K L I J (the spec's own inference from R121 and R122), and the ROM is a permutation. -/
def Obligations.HouseLettersByHighNibble : Prop :=
  (∀ i : Nibble,
      (memReadHcLut i).val = [12, 4, 2, 10, 14, 6, 0, 8, 13, 5, 3, 11, 15, 7, 1, 9].getD i.toNat 16) ∧
    (∀ b0 : Byte, house b0 = memReadHcLut ((rev8 b0).extractLsb' 0 4)) ∧
    (∀ b0 : Byte,
      (house b0).val = [12, 13, 14, 15, 2, 3, 0, 1, 4, 5, 6, 7, 10, 11, 8, 9].getD (b0.toNat / 16) 16) ∧
    ∀ l : Fin 16, ∃ i : Nibble, memReadHcLut i = l ∧ ∀ j : Nibble, memReadHcLut j = l → j = i

/-- R124: the unit adder never overflows its six bits, and its range is 1 to 44. -/
def Obligations.UnitAdderIsExact : Prop :=
  ∀ r0 r2 : Byte,
    (unitBase r0 r2).toNat =
        r2.toNat / 8 + (if r2.getLsbD 1 then 4 else 0) + (if r0.getLsbD 5 then 8 else 0) + 1 ∧
      1 ≤ (unitBase r0 r2).toNat ∧ (unitBase r0 r2).toNat ≤ 44

/-- R125 in the raw terms of its corner cases, on the frames whose checksum holds (R126). -/
def Obligations.X10CommandByRawBits : Prop :=
  ∀ b0 b2 : Byte,
    decodeX10 b0 (~~~b0) b2 (~~~b2) =
      if b2 = 0x98#8 then
        .ok { house := house b0, unit := some (unitBase (rev8 b0) (rev8 b2)), cmd := .off }
      else if b2 = 0x88#8 then
        .ok { house := house b0, unit := some (unitBase (rev8 b0) (rev8 b2) + 1#6), cmd := .on }
      else if b2.getLsbD 7 then .error .unsupportedCmd
      else if b2.getLsbD 5 then
        .ok { house := house b0, unit := some (unitBase (rev8 b0) (rev8 b2)), cmd := .off }
      else .ok { house := house b0, unit := some (unitBase (rev8 b0) (rev8 b2)), cmd := .on }

/-- R128, R129 and C3: every X10 event is an On or Off with a unit from 1 to 44. -/
def Obligations.X10EventsAreOnOrOffWithUnit : Prop :=
  ∀ (src : MinDelaySrc) (b0 b1 b2 b3 : Byte) (e : X10Event),
    route src b0 b1 b2 b3 = .ok (.x10 e) →
      (e.cmd = .on ∨ e.cmd = .off) ∧ ∃ u, e.unit = some u ∧ 1 ≤ u.toNat ∧ u.toNat ≤ 44

/-- R150: the security decoder first, then the X10 decoder, and otherwise the drop code of the X10 decoder's reason; an X10
event is never a candidate's. -/
def Obligations.RouterTriesSecurityFirst : Prop :=
  ∀ (src : MinDelaySrc) (b0 b1 b2 b3 : Byte),
    (∀ e, route src b0 b1 b2 b3 = .ok (.security e) ↔ decodeSecurity src b0 b1 b2 b3 = some e) ∧
      (∀ e, route src b0 b1 b2 b3 = .ok (.x10 e) ↔
        decodeSecurity src b0 b1 b2 b3 = none ∧ decodeX10 b0 b1 b2 b3 = .ok e) ∧
      (∀ c, route src b0 b1 b2 b3 = .error c ↔
        decodeSecurity src b0 b1 b2 b3 = none ∧
          ∃ r, decodeX10 b0 b1 b2 b3 = .error r ∧ c = dropCode b0 b1 b2 r) ∧
      (∀ e, route src b0 b1 b2 b3 = .ok (.x10 e) → cand b0 b1 = false)

/-- R151 through the router of R150, with the rows 2, 3 and 8 of R74, R125 and R222: the three drop codes, each with exactly its
cause, and never the code of the fatal error. -/
def Obligations.DropCodeNamesTheCause : Prop :=
  ∀ (src : MinDelaySrc) (b0 b1 b2 b3 : Byte),
    (route src b0 b1 b2 b3 = .error .dropSecMask ↔
        hiNibble b0 = hiNibble b1 ∧ b2 &&& 0x7A#8 ≠ 0#8) ∧
      (route src b0 b1 b2 b3 = .error .dropChecksum ↔
        hiNibble b0 ≠ hiNibble b1 ∧ ¬ (b1 = ~~~b0 ∧ b3 = ~~~b2)) ∧
      (route src b0 b1 b2 b3 = .error .dropUnsupportedCmd ↔
        (b1 = ~~~b0 ∧ b3 = ~~~b2) ∧ b2.getLsbD 7 = true ∧ b2 ≠ 0x98#8 ∧ b2 ≠ 0x88#8) ∧
      route src b0 b1 b2 b3 ≠ .error .ioFatal

/-! ### Encodings -/

/-- Decoding the code of a well-formed instruction gives it back, for every row and every operand. -/
def Obligations.DecodeEncodeRoundTrip : Prop :=
  ∀ i : Instr, i.wellFormed = true → decode (encode i) = i

/-- Every code has one instruction, which is well formed and whose code it is. -/
def Obligations.EncodeDecodeRoundTrip : Prop :=
  ∀ c : Code, encode (decode c) = c ∧ (decode c).wellFormed = true

/-- Words written out from R71, R72 and R78, one or more for each family. -/
def Obligations.WordsFromTheTables : Prop :=
  decode (.frame 0x56558100#32) = .sec5 ⟨6, 5, true, false, true, 0x00⟩ ∧
    decode (.frame 0xFFFF85FF#32) = .secF ⟨15, 15, true, true, true, 0xFF⟩ ∧
    decode (.frame 0x56551000#32) = .dropSecMask 0x56 0x55 0x10 0x00 ∧
    decode (.frame 0x12345678#32) = .dropChecksum 0x12 0x34 0x56 0x78 ∧
    decode (.frame 0x609F9867#32) = .x10Off19 0x60 ∧
    decode (.frame 0x609F8877#32) = .x10On11 0x60 ∧
    decode (.frame 0x609F20DF#32) = .x10Off 0x60 0x20 ∧
    decode (.frame 0x609F00FF#32) = .x10On 0x60 0x00 ∧
    decode (.frame 0x609F807F#32) = .dropUnsupportedCmd 0x60 0x80 ∧
    decode (.stim 0x1056#16) = .rx 0x56 ∧
    decode (.stim 0x2000#16) = .exp ∧
    decode (.stim 0x8000#16) = .joinTo ∧
    decode (.stim 0xF000#16) = .rst ∧
    decode (.stim 0x2001#16) = .reservedStim 0x2001

/-- R74: the decode class of a frame, by the condition of each row. -/
def Obligations.FrameClassConditions : Prop :=
  ∀ b0 b1 b2 b3 : Byte,
    let i := decodeFrame (packFrame b0 b1 b2 b3)
    let cd := hiNibble b0 = hiNibble b1
    let cks := b1 = ~~~b0 ∧ b3 = ~~~b2
    ((∃ f, secParts i = some (hiNibble b0, f)) ↔ cd ∧ b2 &&& 0x7A#8 = 0#8) ∧
      (i = .dropSecMask b0 b1 b2 b3 ↔ cd ∧ b2 &&& 0x7A#8 ≠ 0#8) ∧
      (i = .dropChecksum b0 b1 b2 b3 ↔ ¬ cd ∧ ¬ cks) ∧
      (i = .x10Off19 b0 ↔ cks ∧ b2 = 0x98#8) ∧
      (i = .x10On11 b0 ↔ cks ∧ b2 = 0x88#8) ∧
      (i = .x10Off b0 b2 ↔ cks ∧ b2.getLsbD 7 = false ∧ b2.getLsbD 5 = true) ∧
      (i = .x10On b0 b2 ↔ cks ∧ b2.getLsbD 7 = false ∧ b2.getLsbD 5 = false) ∧
      (i = .dropUnsupportedCmd b0 b2 ↔ cks ∧ b2.getLsbD 7 = true ∧ b2 ≠ 0x98#8 ∧ b2 ≠ 0x88#8)

/-- R80: exactly the words that spell no stimulus are refused, by name and in every state. -/
def Obligations.ReservedStimulusRefused : Prop :=
  ∀ w : StimWord,
    (decode (.stim w) = .reservedStim w ↔
        w.toNat / 4096 ∈ [0x0, 0xA, 0xB, 0xC, 0xD, 0xE] ∨ w.toNat / 256 % 16 ≠ 0 ∨
          (w.toNat / 4096 ≠ 1 ∧ w.toNat % 256 ≠ 0)) ∧
      ∀ s : State, exec (.reservedStim w) s = .refused (.reservedStimulus w)

/-- R77: the event word, field by field. -/
def Obligations.EventWordLayout : Prop :=
  (∀ e : X10Event,
      (Event.x10 e).word.toNat =
        e.cmd.code.toNat * 8192 + (if e.unit.isSome then 4096 else 0) + (e.unit.getD 0).toNat * 64 +
          e.house.val * 4) ∧
    [Cmd.on, .off, .dim, .bright].map Cmd.code = [0, 1, 2, 3] ∧
    ∀ e : SecurityEvent,
      (Event.security e).word.toNat =
        32768 + (if e.state = .closed then 16384 else 0) + (if e.lowBattery then 8192 else 0) +
          (if e.minDelay then 4096 else 0) + e.address.toNat

/-- R77 and D3: one word per event, so that traces compare exactly. -/
def Obligations.EventWordsAreDistinct : Prop :=
  ∀ e e' : Event, e.word = e'.word → e = e'

/-- R81: the kind and the payload of every record. -/
def Obligations.RecordWordLayout : Prop :=
  (∀ e : Event, (Record.evt e).word.toNat = 0x10000 + e.word.toNat) ∧
    (Record.diag .dropChecksum).word = 0x20001#20 ∧ (Record.diag .dropSecMask).word = 0x20002#20 ∧
    (Record.diag .dropUnsupportedCmd).word = 0x20003#20 ∧ (Record.diag .ioFatal).word = 0x20004#20 ∧
    Record.portOpenReq.word = 0x30000#20 ∧ Record.portClose.word = 0x40000#20 ∧
    (Record.doneConn true).word = 0x50001#20 ∧ (Record.doneConn false).word = 0x50000#20 ∧
    Record.doneDisc.word = 0x60001#20

/-- R108 and R127: the renderings at the sink boundary. -/
def Obligations.SinkRenderings : Prop :=
  (∀ (a : Byte),
      renderAddress a =
        [if a.toNat / 16 ≤ 9 then BitVec.ofNat 8 (0x30 + a.toNat / 16)
          else BitVec.ofNat 8 (0x61 + (a.toNat / 16 - 10)),
         if a.toNat % 16 ≤ 9 then BitVec.ofNat 8 (0x30 + a.toNat % 16)
          else BitVec.ofNat 8 (0x61 + (a.toNat % 16 - 10))]) ∧
    ∀ h : Fin 16, (renderHouse h).toNat = 0x41 + h.val

/-- R79: an X10F line spells a frame with both pairs correct, and a SECF line whose function byte passes the mask a report with
the address it names. -/
def Obligations.PseudoInstructionFrames : Prop :=
  (∀ x y : Byte,
      (ScriptLine.x10f x y).expand = [.rx x, .rx (~~~x), .rx y, .rx (~~~y)] ∧ ck x (~~~x) y (~~~y) = true) ∧
    ∀ (src : MinDelaySrc) (h : Nibble) (a f t : Byte), secMaskOk f = true →
      ∃ b0 b1 e, (ScriptLine.secf h a f t).expand = [.rx b0, .rx b1, .rx f, .rx t] ∧
        hiNibble b0 = h ∧ decodeSecurity src b0 b1 f t = some e ∧ e.address = a

/-! ### What each instruction does, with everything it leaves as it is -/

/-- R160. -/
def Obligations.ReceiverQueuesOrLosesByte : Prop :=
  ∀ (b : Byte) (s : State),
    exec (.rx b) s =
      .next
        (if s.portOpen = true ∧ s.rxq.length < s.cfg.rxDepth then { s with rxq := s.rxq ++ [b] } else s)

/-- R161. That LOOP_TEST_RUN is refused by its guard's name, where it has no step, is the model's reading (log 8). -/
def Obligations.LoopTestRunOpensWindow : Prop :=
  ∀ s : State,
    (s.wstate = .wCheck ∧ s.running = true →
        exec .loopTestRun s =
          .next { s with cnt := 0, fb := ⟨none, none, none, none⟩, wstate := .wRead }) ∧
      (¬ (s.wstate = .wCheck ∧ s.running = true) →
        exec .loopTestRun s = .refused (.notEnabled "LOOP_TEST_RUN"))

/-- R162. That LOOP_TEST_EXIT is refused by its guard's name, where it has no step, is the model's reading (log 8). -/
def Obligations.LoopTestExitEndsWorker : Prop :=
  ∀ s : State,
    (s.wstate = .wCheck ∧ s.running = false → exec .loopTestExit s = .next { s with wstate := .wNone }) ∧
      (¬ (s.wstate = .wCheck ∧ s.running = false) →
        exec .loopTestExit s = .refused (.notEnabled "LOOP_TEST_EXIT"))

/-- R163: the head of the queue goes into the cell `cnt`, and every other cell stays. That BYTE_TAKE is refused by its guard's
name, where it has no step, is the model's reading (log 8). -/
def Obligations.ByteTakeMovesQueueHead : Prop :=
  ∀ s : State,
    (∀ b rest, s.wstate = .wRead → s.cnt.val < 4 → s.rxq = b :: rest →
        exec .byteTake s =
          .next
            { s with
              rxq := rest
              cnt := s.cnt + 1
              fb :=
                ⟨if s.cnt.val = 0 then some b else s.fb.c0, if s.cnt.val = 1 then some b else s.fb.c1,
                  if s.cnt.val = 2 then some b else s.fb.c2, if s.cnt.val = 3 then some b else s.fb.c3⟩ }) ∧
      (s.wstate ≠ .wRead ∨ s.cnt.val = 4 ∨ s.rxq = [] →
        exec .byteTake s = .refused (.notEnabled "BYTE_TAKE"))

/-- R164: a full window is routed; an event goes to the sink, a drop to one diagnostic record. -/
def Obligations.FrameDoneRoutesFrame : Prop :=
  ∀ (s : State) (b0 b1 b2 b3 : Byte),
    s.fb = ⟨some b0, some b1, some b2, some b3⟩ → s.wstate = .wRead → s.cnt = 4 →
      (∀ e, route s.cfg.minDelaySrc b0 b1 b2 b3 = .ok e →
          exec .frameDone s =
            .next
              { s with
                cnt := 0, fb := ⟨none, none, none, none⟩, evt := some e, wstate := .wEmit
                trace := s.trace ++ [.evt e] }) ∧
        (∀ c, route s.cfg.minDelaySrc b0 b1 b2 b3 = .error c →
          exec .frameDone s =
            .next
              { s with
                cnt := 0, fb := ⟨none, none, none, none⟩, wstate := .wCheck
                trace := s.trace ++ [.diag c] })

/-- R30 and I12: FRAME_DONE on a cell with no value is the fault. Outside its guard there is no such step (R164); that it is
refused by name there is the model's reading (log 8). -/
def Obligations.FrameDoneStops : Prop :=
  ∀ s : State,
    (s.wstate = .wRead → s.cnt = 4 →
        s.fb.c0 = none ∨ s.fb.c1 = none ∨ s.fb.c2 = none ∨ s.fb.c3 = none →
        exec .frameDone s = .fault .emptyFrameCell) ∧
      (s.wstate ≠ .wRead ∨ s.cnt ≠ 4 → exec .frameDone s = .refused (.notEnabled "FRAME_DONE"))

/-- R165. -/
def Obligations.WindowExpiryDiscardsPartialFrame : Prop :=
  ∀ s : State,
    (s.wstate = .wRead ∧ s.cnt.val < 4 ∧ s.rxq = [] →
        exec .exp s = .next { s with cnt := 0, fb := ⟨none, none, none, none⟩, wstate := .wCheck }) ∧
      (¬ (s.wstate = .wRead ∧ s.cnt.val < 4 ∧ s.rxq = []) → exec .exp s = .refused (.notEnabled "EXP"))

/-- R166. -/
def Obligations.SinkAckFreesWorker : Prop :=
  ∀ s : State,
    (s.wstate = .wEmit → exec .ack s = .next { s with evt := none, wstate := .wCheck }) ∧
      (s.wstate ≠ .wEmit → exec .ack s = .refused (.notEnabled "ACK"))

/-- R167: the fatal path, whole. -/
def Obligations.IoErrorFatalPath : Prop :=
  ∀ s : State,
    (s.wstate = .wRead ∧ s.cnt.val < 4 →
        exec .ioerr s =
          .next
            { s with
              cnt := 0
              fb := ⟨none, none, none, none⟩
              running := false
              wstate := .wNone
              phase := if s.phase = .running then .stopping else s.phase
              fatalReported := true
              trace := if s.fatalReported = true then s.trace else s.trace ++ [.diag .ioFatal] }) ∧
      (¬ (s.wstate = .wRead ∧ s.cnt.val < 4) → exec .ioerr s = .refused (.notEnabled "IOERR"))

/-- R190 with what the request asks for, R191, and the host's turn to wait (R78, R253). -/
def Obligations.ConnectAcceptedOnlyInIdle : Prop :=
  ∀ s : State,
    (s.phase = .idle →
        exec .conn s = .next { s with phase := .connecting, trace := s.trace ++ [.portOpenReq] } ∧
          s.portSettings =
            { path := s.cfg.portPath, baud := 4800, dataBits := 8, parity := .none, stopBits := 1, flow := .none
              readTimeoutMs := 1000 }) ∧
      (s.phase = .running ∨ (s.phase = .stopping ∧ s.discPending = false) ∨ s.phase = .closed →
        exec .conn s = .next { s with trace := s.trace ++ [.doneConn false] }) ∧
      (s.phase = .connecting ∨ (s.phase = .stopping ∧ s.discPending = true) →
        exec .conn s = .refused (.notEnabled "CONN"))

/-- R192 and R193. -/
def Obligations.PortAnswersConnect : Prop :=
  ∀ s : State,
    (s.phase = .connecting →
        exec .openOk s =
            .next
              { s with
                portOpen := true, rxq := [], running := true, wstate := .wCheck, phase := .running
                trace := s.trace ++ [.doneConn true] } ∧
          exec .openFail s = .next { s with phase := .idle, trace := s.trace ++ [.doneConn false] }) ∧
      (s.phase ≠ .connecting →
        exec .openOk s = .refused (.notEnabled "OPEN_OK") ∧
          exec .openFail s = .refused (.notEnabled "OPEN_FAIL"))

/-- R194 to R197, and the host's turn to wait (R78, R253). -/
def Obligations.DisconnectByPhase : Prop :=
  ∀ s : State,
    (s.phase = .idle → exec .disc s = .next { s with phase := .closed, trace := s.trace ++ [.doneDisc] }) ∧
      (s.phase = .running →
        exec .disc s = .next { s with running := false, discPending := true, phase := .stopping }) ∧
      (s.phase = .stopping ∧ s.discPending = false → exec .disc s = .next { s with discPending := true }) ∧
      (s.phase = .closed → exec .disc s = .next { s with trace := s.trace ++ [.doneDisc] }) ∧
      (s.phase = .connecting ∨ (s.phase = .stopping ∧ s.discPending = true) →
        exec .disc s = .refused (.notEnabled "DISC"))

/-- R198 and R199: both ends of a disconnect close the port, and leave the worker and its window as they are. That JOIN_DONE is
refused by its guard's name, where it has no step, is the model's reading (log 8). -/
def Obligations.DisconnectClosesPort : Prop :=
  ∀ s : State,
    let t : State :=
      { s with
        portOpen := false, rxq := [], discPending := false, phase := .closed
        trace := s.trace ++ [.portClose, .doneDisc] }
    (s.phase = .stopping ∧ s.discPending = true ∧ s.wstate = .wNone → exec .joinDone s = .next t) ∧
      (s.phase = .stopping ∧ s.discPending = true ∧ s.wstate ≠ .wNone → exec .joinTo s = .next t) ∧
      (¬ (s.phase = .stopping ∧ s.discPending = true ∧ s.wstate = .wNone) →
        exec .joinDone s = .refused (.notEnabled "JOIN_DONE")) ∧
      (¬ (s.phase = .stopping ∧ s.discPending = true ∧ s.wstate ≠ .wNone) →
        exec .joinTo s = .refused (.notEnabled "JOIN_TO"))

/-- R250 with the values of R35: every state element at its reset value; the trace is kept. That
the parameters and the inputs are kept too (R33: they are no state) is the model's choice (logs 3 and 4). -/
def Obligations.ResetGivesFreshInstance : Prop :=
  ∀ s : State,
    exec .rst s =
      .next
        { phase := .idle, wstate := .wNone, running := false, portOpen := false, discPending := false
          fatalReported := false, rxq := [], cnt := 0, fb := ⟨none, none, none, none⟩, evt := none
          trace := s.trace, cfg := s.cfg, script := s.script, sched := s.sched }

/-- R35: the state after reset, for the elements the rule lists. -/
def Obligations.ResetStateValues : Prop :=
  State.reset.phase = .idle ∧ State.reset.wstate = .wNone ∧ State.reset.running = false ∧
    State.reset.portOpen = false ∧ State.reset.discPending = false ∧ State.reset.fatalReported = false ∧
    State.reset.rxq = [] ∧ State.reset.cnt = 0 ∧ State.reset.fb = ⟨none, none, none, none⟩ ∧
    State.reset.evt = none ∧ hcLut.toList = [12, 4, 2, 10, 14, 6, 0, 8, 13, 5, 3, 11, 15, 7, 1, 9]

/-- R27 with the codes of R21 and R22: the two derived signals, and the codes of `phase` and `wstate`; the unused codes of
`phase` are refused (I17). That the queue is no status output is the model's reading (log 14). -/
def Obligations.StatusOutputValues : Prop :=
  (∀ s : State,
      (s.status.cmdBusy = true ↔ s.phase = .connecting ∨ (s.phase = .stopping ∧ s.discPending = true)) ∧
        (s.status.workerAlive = true ↔ s.wstate ≠ .wNone) ∧
        Phase.ofCode s.status.phase = .ok s.phase ∧ WState.ofCode s.status.wstate = s.wstate ∧
        s.status.running = s.running ∧ s.status.portOpen = s.portOpen ∧ s.status.discPending = s.discPending ∧
        s.status.fatalReported = s.fatalReported ∧ s.status.cnt = s.cnt ∧ s.status.fb = s.fb ∧
        s.status.evt = s.evt) ∧
    (∀ c : BitVec 3, c.toNat < 5 → ∃ p, Phase.ofCode c = .ok p ∧ p.code = c) ∧
    (∀ c : BitVec 3, 5 ≤ c.toNat → Phase.ofCode c = .error (.unusedPhase c)) ∧
    [Phase.idle, .connecting, .running, .stopping, .closed].map Phase.code = [0, 1, 2, 3, 4] ∧
    [WState.wNone, .wCheck, .wRead, .wEmit].map WState.code = [0, 1, 2, 3]

/-- The sixteen rows SEC_0 to SEC_F (R74, R71, R102 to R107, R164): the report of a frame of each class. That a row run by
itself has the whole effect of R164 from its operands, whatever the frame buffer holds, is the model's reading (log 6). -/
def Obligations.SecurityRowsEmitReport : Prop :=
  ∀ (i : Instr) (n : Nibble) (f : SecFrame) (s : State),
    secParts i = some (n, f) → s.wstate = .wRead → s.cnt = 4 →
      let e : Event :=
        .security
          { dev := .ds10a
            address := f.addrHi ++ f.addrLo
            state := if f.closed then .closed else .opened
            lowBattery := f.lowBattery
            minDelay := match s.cfg.minDelaySrc with | .b2 => true | .b1 => !n.getLsbD 0 }
      exec i s =
        .next
          { s with
            cnt := 0, fb := ⟨none, none, none, none⟩, evt := some e, wstate := .wEmit
            trace := s.trace ++ [.evt e] }

/-- The rows X10_OFF_19, X10_ON_11, X10_OFF and X10_ON (R74, R123 to R125, R164). That a row run by itself has the whole effect
of R164 from its operands, whatever the frame buffer holds, is the model's reading (log 6). -/
def Obligations.X10RowsEmitCommand : Prop :=
  ∀ (b0 b2 : Byte) (s : State), s.wstate = .wRead → s.cnt = 4 →
    let out (u : BitVec 6) (c : Cmd) : State :=
      { s with
        cnt := 0, fb := ⟨none, none, none, none⟩, wstate := .wEmit
        evt := some (.x10 { house := house b0, unit := some u, cmd := c })
        trace := s.trace ++ [.evt (.x10 { house := house b0, unit := some u, cmd := c })] }
    exec (.x10Off19 b0) s = .next (out (unitBase (rev8 b0) 0x19#8) .off) ∧
      exec (.x10On11 b0) s = .next (out (unitBase (rev8 b0) 0x11#8 + 1#6) .on) ∧
      exec (.x10Off b0 b2) s = .next (out (unitBase (rev8 b0) (rev8 b2)) .off) ∧
      exec (.x10On b0 b2) s = .next (out (unitBase (rev8 b0) (rev8 b2)) .on)

/-- The rows DROP_SEC_MASK, DROP_CHECKSUM and DROP_UNSUPPORTED_CMD (R74, R75, R151, R164): one record and no
event. That a row run by itself has the whole effect of R164, whatever the frame buffer holds, is the model's reading (log 6). -/
def Obligations.DropRowsEmitDiagnostic : Prop :=
  ∀ (b0 b1 b2 b3 : Byte) (s : State), s.wstate = .wRead → s.cnt = 4 →
    let out (c : DiagCode) : State :=
      { s with
        cnt := 0, fb := ⟨none, none, none, none⟩, wstate := .wCheck, trace := s.trace ++ [.diag c] }
    exec (.dropSecMask b0 b1 b2 b3) s = .next (out .dropSecMask) ∧
      exec (.dropChecksum b0 b1 b2 b3) s = .next (out .dropChecksum) ∧
      exec (.dropUnsupportedCmd b0 b2) s = .next (out .dropUnsupportedCmd)

/-- The decode-class table and the router agree: a complete frame runs as the row of its class (R74, R150, R164). That
the rows are complete frames by themselves is the model's reading (log 6). -/
def Obligations.FrameDoneRunsFrameClass : Prop :=
  ∀ (s : State) (b0 b1 b2 b3 : Byte),
    s.fb = ⟨some b0, some b1, some b2, some b3⟩ → s.wstate = .wRead → s.cnt = 4 →
      exec .frameDone s = exec (decodeFrame (packFrame b0 b1 b2 b3)) s ∧
        ∃ t, exec .frameDone s = .next t

/-- R78 and I18: an instruction answers a next state exactly when its guard holds, and is refused by its guard otherwise; in a
state that meets the invariant none faults. That an internal step or a frame row is refused outside its guard is the model's
choice (log 8). -/
def Obligations.GuardDecidesCompletion : Prop :=
  ∀ (i : Instr) (s : State), Inv s →
    ((∃ t, exec i s = .next t) ↔ enabled i s = true) ∧ ∀ r, exec i s ≠ .fault r

/-! ### One step of the machine -/

/-- A step runs the decoded instruction: a frame in a full window, another enabled internal step, or the next stimulus word
(R164, R172, R224). How the inputs stand in the state is the model's choice (log 4). -/
def Obligations.StepRunsDecodedInstruction : Prop :=
  (∀ (s : State) (c : Code) (t : State), s.fetch = some (c, t) → step s = exec (decode c) t) ∧
    (∀ (s : State) (w : StimWord) (ws : List StimWord),
        s.nextInternal = none → s.script = w :: ws → step s = exec (decode (.stim w)) { s with script := ws }) ∧
    (∀ (s : State) (w : StimWord) (ws : List StimWord) (ts : List Turn),
        s.script = w :: ws → s.nextInternal ≠ none → s.sched = .stimulus :: ts →
        step s = exec (decode (.stim w)) { s with script := ws, sched := ts }) ∧
    (∀ (s : State) (b0 b1 b2 b3 : Byte),
        s.wstate = .wRead → s.cnt = 4 → s.fb = ⟨some b0, some b1, some b2, some b3⟩ →
        (s.script = [] ∨ s.sched = [] →
            step s = exec (decode (.frame (packFrame b0 b1 b2 b3))) s) ∧
          ∀ ts, s.script ≠ [] → s.sched = .internal :: ts →
            step s = exec (decode (.frame (packFrame b0 b1 b2 b3))) { s with sched := ts }) ∧
    ∀ (s : State) (k : InternalStep), s.nextInternal = some k → k ≠ .frameDone →
      (s.script = [] ∨ s.sched = [] → step s = exec (decode (.internal k)) s) ∧
        ∀ ts, s.script ≠ [] → s.sched = .internal :: ts →
          step s = exec (decode (.internal k)) { s with sched := ts }

/-- The model's choice (log 5): with no step enabled and no stimulus waiting, the block waits. -/
def Obligations.StepWaitsWithoutInput : Prop :=
  ∀ s : State, s.script = [] → s.nextInternal = none → step s = .next s

/-- The guards of R161 to R164 and R198 exclude each other: at most one internal step is enabled. A step takes it, except
where `sched` chooses a stimulus that waits; that `sched` chooses, and that the internal step goes first without a choice, is
the model's choice (log 4), as in R172. A frame completion is taken through its class (log 6), with FRAME_DONE's outcome. -/
def Obligations.OneInternalStepAtMost : Prop :=
  ∀ (s : State) (j : InternalStep), enabled (decode (.internal j)) s = true →
    s.nextInternal = some j ∧
      (∀ k, enabled (decode (.internal k)) s = true → k = j) ∧
      (s.script = [] ∨ s.sched = [] → step s = exec (decode (.internal j)) s) ∧
      (∀ ts, s.script ≠ [] → s.sched = .internal :: ts →
        step s = exec (decode (.internal j)) { s with sched := ts }) ∧
      ∀ w ws ts, s.script = w :: ws → s.sched = .stimulus :: ts →
        step s = exec (decode (.stim w)) { s with script := ws, sched := ts }

/-- A placed word is the instruction the next step runs: the model's own interface (log 11). -/
def Obligations.PlacedWordRunsNext : Prop :=
  (∀ (s : State) (w : StimWord), step (s.withFetchWord 16 w.toNat) = exec (decode (.stim w)) s) ∧
    ∀ (s : State) (w : FrameWord),
      step (s.withFetchWord 32 w.toNat) =
        exec (decode (.frame w))
          { s with
            wstate := .wRead, cnt := 4
            fb := ⟨some (frameB0 w), some (frameB1 w), some (frameB2 w), some (frameB3 w)⟩ }

/-! ### Invariants and rules of the whole machine -/

/-- R34 and R35: the invariant holds at reset. The depth bound rests on the model's reset depth (log 1). -/
def Obligations.ResetMeetsInvariant : Prop := Inv State.reset

/-- R34: every step keeps the invariant, from every state that meets it. -/
def Obligations.StepKeepsInvariant : Prop :=
  ∀ s t : State, Inv s → step s = .next t → Inv t

/-- R23: who writes `running`. -/
def Obligations.RunningWriters : Prop :=
  ∀ (i : Instr) (s t : State), exec i s = .next t → t.running ≠ s.running →
    (i = .openOk ∧ t.running = true) ∨ (i = .ioerr ∧ t.running = false) ∨
      (i = .disc ∧ s.phase = .running ∧ t.running = false) ∨ (i = .rst ∧ t.running = false)

/-- R26: an I/O error sets `fatal_reported` and nothing else does; reset clears it and nothing else does. -/
def Obligations.FatalReportedSticky : Prop :=
  ∀ (i : Instr) (s t : State), exec i s = .next t →
    (s.fatalReported = true → i ≠ .rst → t.fatalReported = true) ∧
      (s.fatalReported = false → t.fatalReported = true → i = .ioerr) ∧
      (i = .ioerr → t.fatalReported = true) ∧ (i = .rst → t.fatalReported = false)

/-- R21 with R190 to R199, R167 and R250: the lifecycle's moves, and no others. -/
def Obligations.PhaseMovesAreListed : Prop :=
  ∀ (i : Instr) (s t : State), exec i s = .next t → t.phase ≠ s.phase →
    (i = .conn ∧ s.phase = .idle ∧ t.phase = .connecting) ∨
      (i = .openOk ∧ s.phase = .connecting ∧ t.phase = .running) ∨
      (i = .openFail ∧ s.phase = .connecting ∧ t.phase = .idle) ∨
      (i = .disc ∧ s.phase = .idle ∧ t.phase = .closed) ∨
      (i = .disc ∧ s.phase = .running ∧ t.phase = .stopping) ∨
      (i = .ioerr ∧ s.phase = .running ∧ t.phase = .stopping) ∨
      ((i = .joinDone ∨ i = .joinTo) ∧ s.phase = .stopping ∧ t.phase = .closed) ∨
      (i = .rst ∧ t.phase = .idle)

/-- R171: only OPEN_OK, and only in Connecting, gives the block a worker. -/
def Obligations.OnlyOpenOkStartsWorker : Prop :=
  ∀ (i : Instr) (s t : State), exec i s = .next t → s.wstate = .wNone → t.wstate ≠ .wNone →
    i = .openOk ∧ s.phase = .connecting ∧ t.phase = .running ∧ t.wstate = .wCheck

/-- R221: a complete frame, dropped or not, leaves the lifecycle, the queue and the parameters as they are. -/
def Obligations.FrameRowsKeepLifecycle : Prop :=
  ∀ (i : Instr) (s t : State), isFrameRow i = true → exec i s = .next t →
    t.phase = s.phase ∧ t.running = s.running ∧ t.portOpen = s.portOpen ∧ t.discPending = s.discPending ∧
      t.fatalReported = s.fatalReported ∧ t.rxq = s.rxq ∧ t.cfg = s.cfg

/-- R168: each complete frame gives exactly one record, an event handed to the sink or a diagnostic. -/
def Obligations.OneRecordPerFrame : Prop :=
  ∀ (i : Instr) (s t : State), isFrameRow i = true → exec i s = .next t →
    (∃ e, t.trace = s.trace ++ [.evt e] ∧ t.evt = some e ∧ t.wstate = .wEmit) ∨
      ∃ c, c ≠ .ioFatal ∧ t.trace = s.trace ++ [.diag c] ∧ t.evt = s.evt ∧ t.wstate = .wCheck

/-- R58 and R202: the command unit leaves the worker's state alone, but for the start of a worker. -/
def Obligations.CommandUnitLeavesWorker : Prop :=
  ∀ (i : Instr) (s t : State), isLifecycleStep i = true → exec i s = .next t →
    t.cnt = s.cnt ∧ t.fb = s.fb ∧ t.evt = s.evt ∧ t.fatalReported = s.fatalReported ∧
      (i ≠ .openOk → t.wstate = s.wstate) ∧
      (i ≠ .openOk → i ≠ .joinDone → i ≠ .joinTo → t.rxq = s.rxq ∧ t.portOpen = s.portOpen)

/-- R169: where every byte in flight goes, for every instruction. A frame row, EXP and IOERR use up the bytes of the window,
and JOIN_DONE and JOIN_TO throw the queue away; RX alone adds a byte, and the others leave all of them in flight. -/
def Obligations.ByteAccounting : Prop :=
  ∀ (i : Instr) (s t : State), Inv s → exec i s = .next t →
    (t.inFlight = s.inFlight ∧ isFrameRow i = false ∧ i ∉ [.exp, .ioerr, .joinDone, .joinTo, .rst]) ∨
      (∃ b, i = .rx b ∧ t.inFlight = s.inFlight ++ [b]) ∨
      ((isFrameRow i = true ∨ i = .exp ∨ i = .ioerr) ∧ t.inFlight = s.rxq) ∨
      ((i = .joinDone ∨ i = .joinTo) ∧ t.inFlight = s.fb.held) ∨
      (i = .rst ∧ t.inFlight = [])

/-- R8 and R250: no step changes a parameter or takes back a record. That no step writes the path either is the model's
choice (log 3). -/
def Obligations.OutputOnlyGrows : Prop :=
  ∀ s t : State, step s = .next t → t.cfg = s.cfg ∧ ∃ os, t.trace = s.trace ++ os

/-- R33 and R236: no step reads the trace. -/
def Obligations.TraceIsNeverRead : Prop :=
  ∀ (s : State) (os : List Record),
    match step s with
    | .next t => ∃ ns, t.trace = s.trace ++ ns ∧ step { s with trace := os } = .next { t with trace := os ++ ns }
    | .fault r => step { s with trace := os } = .fault r
    | .refused r => step { s with trace := os } = .refused r

/-- R199: after Closed, nothing but a reset reopens the instance, and an orphan never opens another window. -/
def Obligations.OrphanNeverReadsAgain : Prop :=
  ∀ (i : Instr) (s t : State), Inv s → s.phase = .closed → i ≠ .rst → exec i s = .next t →
    t.phase = .closed ∧ t.running = false ∧ t.portOpen = false ∧ t.rxq = [] ∧
      (t.wstate = .wRead → s.wstate = .wRead)

/-- R200, in bounded form: a waiting disconnect completes within two internal steps of the worker's loop test, and at once by
JOIN_TO while a worker is alive. -/
def Obligations.DisconnectCompletes : Prop :=
  ∀ s : State, Inv s → s.phase = .stopping → s.discPending = true →
    (s.wstate = .wNone → s.script = [] →
        ∃ t, step s = .next t ∧ t.phase = .closed ∧ t.trace = s.trace ++ [.portClose, .doneDisc]) ∧
      (s.wstate = .wCheck → s.script = [] →
        ∃ t u, step s = .next t ∧ step t = .next u ∧ u.phase = .closed ∧
          u.trace = s.trace ++ [.portClose, .doneDisc]) ∧
      (s.wstate ≠ .wNone →
        ∃ t, exec .joinTo s = .next t ∧ t.phase = .closed ∧ t.trace = s.trace ++ [.portClose, .doneDisc])

/-- R231, R232 and R257, in the model's timed wrapper (log 12). Every timed step is an untimed one that takes no time, and
every untimed step is a timed one but for an expiry before its time, which is refused. LOOP_TEST_RUN starts the window's timer,
and a DISC that waits the join timer. Time passes by one millisecond, and never past a due expiry or the end of a disconnect's
wait; so every such wait is bounded by `P_T_JOIN`. -/
def Obligations.TimedStepRefinesStep : Prop :=
  (∀ t u : TimedState, t.act = .next u →
      step t.base = .next u.base ∧ u.now = t.now ∧
        (∀ s, t.base.fetch = some (encode .exp, s) → t.tOpen + 1000 ≤ t.now) ∧
        (∀ s, t.base.fetch = some (encode .joinTo, s) → t.tDisc + Config.tJoinMs ≤ t.now) ∧
        u.tOpen = (if t.base.fetch.map Prod.fst = some (encode .loopTestRun) then t.now else t.tOpen) ∧
        u.tDisc =
          (if t.base.fetch.map Prod.fst = some (encode .disc) ∧ u.base.discPending = true then t.now
            else t.tDisc)) ∧
    (∀ (t : TimedState) (b : State), step t.base = .next b →
        (∀ s, t.base.fetch = some (encode .exp, s) → t.tOpen + 1000 ≤ t.now) →
        (∀ s, t.base.fetch = some (encode .joinTo, s) → t.tDisc + Config.tJoinMs ≤ t.now) →
        ∃ u, t.act = .next u ∧ u.base = b) ∧
    (∀ (t : TimedState) (s : State),
        (t.base.fetch = some (encode .exp, s) → t.now < t.tOpen + 1000 → t.act = .refused (.notDue "EXP")) ∧
          (t.base.fetch = some (encode .joinTo, s) → t.now < t.tDisc + Config.tJoinMs →
            t.act = .refused (.notDue "JOIN_TO"))) ∧
    (∀ t : TimedState,
        t.tick =
          if (t.base.canExp = true ∧ t.tOpen + 1000 ≤ t.now) ∨
              (t.base.phase = .stopping ∧ t.base.discPending = true ∧ t.tDisc + Config.tJoinMs ≤ t.now) then
            .refused .deadlinePassed
          else .next { t with now := t.now + 1 }) ∧
    0 < Config.tJoinMs ∧ TimedInv TimedState.reset ∧
    ∀ t u : TimedState, TimedInv t → t.act = .next u ∨ t.tick = .next u → TimedInv u
end

