-- ==== Sys2Proof/Laws/Bits.lean ====
section
/-! SUPPORT. Bit-level lemmas of the frame packing, the class nibbles, the bit reversal, the checksum and the ROM. -/

namespace Sys2Proof.Machine

/-- The value of a concatenation: the upper field's weight is the lower field's width (R10). -/
theorem toNat_append_add {m n : Nat} (x : BitVec m) (y : BitVec n) :
    (x ++ y).toNat = x.toNat * 2 ^ n + y.toNat := by
  rw [BitVec.toNat_append, ← Nat.shiftLeft_add_eq_or_of_lt y.isLt, Nat.shiftLeft_eq]

/-- The packed frame, bit by bit (R52). -/
theorem packFrame_getLsbD (b0 b1 b2 b3 : Byte) (i : Nat) :
    (packFrame b0 b1 b2 b3).getLsbD i =
      if i < 8 then b3.getLsbD i
      else if i < 16 then b2.getLsbD (i - 8)
      else if i < 24 then b1.getLsbD (i - 16)
      else b0.getLsbD (i - 24) := by
  simp only [packFrame, BitVec.getLsbD_append]
  have h1 : i - 8 < 8 ↔ i < 16 := by omega
  have h2 : i - 8 - 8 = i - 16 := by omega
  have h3 : i - 16 < 8 ↔ i < 24 := by omega
  have h4 : i - 16 - 8 = i - 24 := by omega
  simp only [h1, h2, h3, h4]

@[simp] theorem frameB0_packFrame (b0 b1 b2 b3 : Byte) : frameB0 (packFrame b0 b1 b2 b3) = b0 := by
  apply BitVec.eq_of_getLsbD_eq
  intro i hi
  simp only [frameB0, BitVec.getLsbD_extractLsb', packFrame_getLsbD]
  interval_cases i <;> simp

@[simp] theorem frameB1_packFrame (b0 b1 b2 b3 : Byte) : frameB1 (packFrame b0 b1 b2 b3) = b1 := by
  apply BitVec.eq_of_getLsbD_eq
  intro i hi
  simp only [frameB1, BitVec.getLsbD_extractLsb', packFrame_getLsbD]
  interval_cases i <;> simp

@[simp] theorem frameB2_packFrame (b0 b1 b2 b3 : Byte) : frameB2 (packFrame b0 b1 b2 b3) = b2 := by
  apply BitVec.eq_of_getLsbD_eq
  intro i hi
  simp only [frameB2, BitVec.getLsbD_extractLsb', packFrame_getLsbD]
  interval_cases i <;> simp

@[simp] theorem frameB3_packFrame (b0 b1 b2 b3 : Byte) : frameB3 (packFrame b0 b1 b2 b3) = b3 := by
  apply BitVec.eq_of_getLsbD_eq
  intro i hi
  simp only [frameB3, BitVec.getLsbD_extractLsb', packFrame_getLsbD]
  interval_cases i <;> simp

/-- A frame word is its four bytes (R52). -/
theorem packFrame_bytes (w : FrameWord) :
    packFrame (frameB0 w) (frameB1 w) (frameB2 w) (frameB3 w) = w := by
  apply BitVec.eq_of_getLsbD_eq
  intro i hi
  simp only [packFrame_getLsbD, frameB0, frameB1, frameB2, frameB3, BitVec.getLsbD_extractLsb']
  interval_cases i <;> simp

@[simp] theorem hiNibble_append (h l : Nibble) : hiNibble (h ++ l) = h := by
  revert h l; decide

@[simp] theorem loNibble_append (h l : Nibble) : loNibble (h ++ l) = l := by
  revert h l; decide

theorem nibbles_append (b : Byte) : hiNibble b ++ loNibble b = b := by
  revert b; decide

/-- The classifier compares the class nibbles (R100). -/
theorem cand_eq (b0 b1 : Byte) : cand b0 b1 = decide (hiNibble b0 = hiNibble b1) := by
  have h : ∀ b : Byte, b >>> 4 = (hiNibble b).setWidth 8 := by decide
  have hinj : ∀ x y : Nibble, x.setWidth 8 = y.setWidth 8 ↔ x = y := by decide
  simp only [cand, h, hinj]

/-- The address is the two low nibbles (R102). -/
theorem secAddress_eq (b0 b1 : Byte) : secAddress b0 b1 = loNibble b0 ++ loNibble b1 := by
  have h : ∀ x y : Byte, (x &&& 0x0F#8) <<< 4 = loNibble x ++ 0#4 ∧ y &&& 0x0F#8 = 0#4 ++ loNibble y := by
    intro x y; exact ⟨by revert x; decide, by revert y; decide⟩
  have ho : ∀ x y : Nibble, (x ++ 0#4) ||| (0#4 ++ y) = x ++ y := by decide
  rw [secAddress, (h b0 b1).1, (h b0 b1).2, ho]

/-- The mask of the security decoder (R101). -/
theorem secMaskOk_eq (b2 : Byte) : secMaskOk b2 = decide (b2 &&& 0x7A#8 = 0#8) := by
  revert b2; decide

/-- R121, bit by bit. -/
theorem rev8_getLsbD (v : Byte) (k : Fin 8) : (rev8 v).getLsbD k = v.getLsbD (7 - k) := by
  revert v k; decide

/-- The checksum pairs hold exactly for complements (R120). -/
theorem ck_iff (b0 b1 b2 b3 : Byte) : ck b0 b1 b2 b3 = true ↔ b1 = ~~~b0 ∧ b3 = ~~~b2 := by
  have h : ∀ x y : Byte, x.setWidth 9 + y.setWidth 9 = 0x0FF#9 ↔ y = ~~~x := by
    intro x y
    constructor
    · intro h; bv_omega
    · rintro rfl; bv_omega
  simp [ck, h]

end Sys2Proof.Machine
end

