-- ==== Sys2Proof/Laws/State.lean ====
section
/-! SUPPORT. The fields of the state after each named update, one lemma per field per update. -/

namespace Sys2Proof.Machine

section Emit

@[simp] theorem State.emit_phase (s : State) (o : Record) : (s.emit o).phase = s.phase := rfl
@[simp] theorem State.emit_wstate (s : State) (o : Record) : (s.emit o).wstate = s.wstate := rfl
@[simp] theorem State.emit_running (s : State) (o : Record) : (s.emit o).running = s.running := rfl
@[simp] theorem State.emit_portOpen (s : State) (o : Record) : (s.emit o).portOpen = s.portOpen := rfl
@[simp] theorem State.emit_discPending (s : State) (o : Record) : (s.emit o).discPending = s.discPending := rfl
@[simp] theorem State.emit_fatalReported (s : State) (o : Record) : (s.emit o).fatalReported = s.fatalReported := rfl
@[simp] theorem State.emit_rxq (s : State) (o : Record) : (s.emit o).rxq = s.rxq := rfl
@[simp] theorem State.emit_cnt (s : State) (o : Record) : (s.emit o).cnt = s.cnt := rfl
@[simp] theorem State.emit_fb (s : State) (o : Record) : (s.emit o).fb = s.fb := rfl
@[simp] theorem State.emit_evt (s : State) (o : Record) : (s.emit o).evt = s.evt := rfl
@[simp] theorem State.emit_trace (s : State) (o : Record) : (s.emit o).trace = s.trace ++ [o] := rfl
@[simp] theorem State.emit_cfg (s : State) (o : Record) : (s.emit o).cfg = s.cfg := rfl
@[simp] theorem State.emit_script (s : State) (o : Record) : (s.emit o).script = s.script := rfl
@[simp] theorem State.emit_sched (s : State) (o : Record) : (s.emit o).sched = s.sched := rfl

end Emit

section QPush

@[simp] theorem State.qPush_phase (s : State) (b : Byte) : (s.qPush b).phase = s.phase := rfl
@[simp] theorem State.qPush_wstate (s : State) (b : Byte) : (s.qPush b).wstate = s.wstate := rfl
@[simp] theorem State.qPush_running (s : State) (b : Byte) : (s.qPush b).running = s.running := rfl
@[simp] theorem State.qPush_portOpen (s : State) (b : Byte) : (s.qPush b).portOpen = s.portOpen := rfl
@[simp] theorem State.qPush_discPending (s : State) (b : Byte) : (s.qPush b).discPending = s.discPending := rfl
@[simp] theorem State.qPush_fatalReported (s : State) (b : Byte) : (s.qPush b).fatalReported = s.fatalReported := rfl
@[simp] theorem State.qPush_rxq (s : State) (b : Byte) : (s.qPush b).rxq = s.rxq ++ [b] := rfl
@[simp] theorem State.qPush_cnt (s : State) (b : Byte) : (s.qPush b).cnt = s.cnt := rfl
@[simp] theorem State.qPush_fb (s : State) (b : Byte) : (s.qPush b).fb = s.fb := rfl
@[simp] theorem State.qPush_evt (s : State) (b : Byte) : (s.qPush b).evt = s.evt := rfl
@[simp] theorem State.qPush_trace (s : State) (b : Byte) : (s.qPush b).trace = s.trace := rfl
@[simp] theorem State.qPush_cfg (s : State) (b : Byte) : (s.qPush b).cfg = s.cfg := rfl
@[simp] theorem State.qPush_script (s : State) (b : Byte) : (s.qPush b).script = s.script := rfl
@[simp] theorem State.qPush_sched (s : State) (b : Byte) : (s.qPush b).sched = s.sched := rfl

end QPush

section ClearWindow

@[simp] theorem State.clearWindow_phase (s : State) : (s.clearWindow).phase = s.phase := rfl
@[simp] theorem State.clearWindow_wstate (s : State) : (s.clearWindow).wstate = s.wstate := rfl
@[simp] theorem State.clearWindow_running (s : State) : (s.clearWindow).running = s.running := rfl
@[simp] theorem State.clearWindow_portOpen (s : State) : (s.clearWindow).portOpen = s.portOpen := rfl
@[simp] theorem State.clearWindow_discPending (s : State) : (s.clearWindow).discPending = s.discPending := rfl
@[simp] theorem State.clearWindow_fatalReported (s : State) : (s.clearWindow).fatalReported = s.fatalReported := rfl
@[simp] theorem State.clearWindow_rxq (s : State) : (s.clearWindow).rxq = s.rxq := rfl
@[simp] theorem State.clearWindow_cnt (s : State) : (s.clearWindow).cnt = 0 := rfl
@[simp] theorem State.clearWindow_fb (s : State) : (s.clearWindow).fb = FrameBuffer.empty := rfl
@[simp] theorem State.clearWindow_evt (s : State) : (s.clearWindow).evt = s.evt := rfl
@[simp] theorem State.clearWindow_trace (s : State) : (s.clearWindow).trace = s.trace := rfl
@[simp] theorem State.clearWindow_cfg (s : State) : (s.clearWindow).cfg = s.cfg := rfl
@[simp] theorem State.clearWindow_script (s : State) : (s.clearWindow).script = s.script := rfl
@[simp] theorem State.clearWindow_sched (s : State) : (s.clearWindow).sched = s.sched := rfl

end ClearWindow

section ClosePort

@[simp] theorem State.closePort_phase (s : State) : (s.closePort).phase = .closed := rfl
@[simp] theorem State.closePort_wstate (s : State) : (s.closePort).wstate = s.wstate := rfl
@[simp] theorem State.closePort_running (s : State) : (s.closePort).running = s.running := rfl
@[simp] theorem State.closePort_portOpen (s : State) : (s.closePort).portOpen = false := rfl
@[simp] theorem State.closePort_discPending (s : State) : (s.closePort).discPending = false := rfl
@[simp] theorem State.closePort_fatalReported (s : State) : (s.closePort).fatalReported = s.fatalReported := rfl
@[simp] theorem State.closePort_rxq (s : State) : (s.closePort).rxq = [] := rfl
@[simp] theorem State.closePort_cnt (s : State) : (s.closePort).cnt = s.cnt := rfl
@[simp] theorem State.closePort_fb (s : State) : (s.closePort).fb = s.fb := rfl
@[simp] theorem State.closePort_evt (s : State) : (s.closePort).evt = s.evt := rfl
@[simp] theorem State.closePort_trace (s : State) : (s.closePort).trace = s.trace ++ [.portClose] ++ [.doneDisc] := rfl
@[simp] theorem State.closePort_cfg (s : State) : (s.closePort).cfg = s.cfg := rfl
@[simp] theorem State.closePort_script (s : State) : (s.closePort).script = s.script := rfl
@[simp] theorem State.closePort_sched (s : State) : (s.closePort).sched = s.sched := rfl

end ClosePort

section ToReset

@[simp] theorem State.toReset_phase (s : State) : (s.toReset).phase = .idle := rfl
@[simp] theorem State.toReset_wstate (s : State) : (s.toReset).wstate = .wNone := rfl
@[simp] theorem State.toReset_running (s : State) : (s.toReset).running = false := rfl
@[simp] theorem State.toReset_portOpen (s : State) : (s.toReset).portOpen = false := rfl
@[simp] theorem State.toReset_discPending (s : State) : (s.toReset).discPending = false := rfl
@[simp] theorem State.toReset_fatalReported (s : State) : (s.toReset).fatalReported = false := rfl
@[simp] theorem State.toReset_rxq (s : State) : (s.toReset).rxq = [] := rfl
@[simp] theorem State.toReset_cnt (s : State) : (s.toReset).cnt = 0 := rfl
@[simp] theorem State.toReset_fb (s : State) : (s.toReset).fb = FrameBuffer.empty := rfl
@[simp] theorem State.toReset_evt (s : State) : (s.toReset).evt = none := rfl
@[simp] theorem State.toReset_trace (s : State) : (s.toReset).trace = s.trace := rfl
@[simp] theorem State.toReset_cfg (s : State) : (s.toReset).cfg = s.cfg := rfl
@[simp] theorem State.toReset_script (s : State) : (s.toReset).script = s.script := rfl
@[simp] theorem State.toReset_sched (s : State) : (s.toReset).sched = s.sched := rfl

end ToReset

section Receive

@[simp] theorem State.receive_phase (s : State) (b : Byte) : (s.receive b).phase = s.phase := by
  unfold State.receive; split <;> [rfl; (split <;> rfl)]
@[simp] theorem State.receive_wstate (s : State) (b : Byte) : (s.receive b).wstate = s.wstate := by
  unfold State.receive; split <;> [rfl; (split <;> rfl)]
@[simp] theorem State.receive_running (s : State) (b : Byte) : (s.receive b).running = s.running := by
  unfold State.receive; split <;> [rfl; (split <;> rfl)]
@[simp] theorem State.receive_portOpen (s : State) (b : Byte) : (s.receive b).portOpen = s.portOpen := by
  unfold State.receive; split <;> [rfl; (split <;> rfl)]
@[simp] theorem State.receive_discPending (s : State) (b : Byte) : (s.receive b).discPending = s.discPending := by
  unfold State.receive; split <;> [rfl; (split <;> rfl)]
@[simp] theorem State.receive_fatalReported (s : State) (b : Byte) : (s.receive b).fatalReported = s.fatalReported := by
  unfold State.receive; split <;> [rfl; (split <;> rfl)]
@[simp] theorem State.receive_cnt (s : State) (b : Byte) : (s.receive b).cnt = s.cnt := by
  unfold State.receive; split <;> [rfl; (split <;> rfl)]
@[simp] theorem State.receive_fb (s : State) (b : Byte) : (s.receive b).fb = s.fb := by
  unfold State.receive; split <;> [rfl; (split <;> rfl)]
@[simp] theorem State.receive_evt (s : State) (b : Byte) : (s.receive b).evt = s.evt := by
  unfold State.receive; split <;> [rfl; (split <;> rfl)]
@[simp] theorem State.receive_trace (s : State) (b : Byte) : (s.receive b).trace = s.trace := by
  unfold State.receive; split <;> [rfl; (split <;> rfl)]
@[simp] theorem State.receive_cfg (s : State) (b : Byte) : (s.receive b).cfg = s.cfg := by
  unfold State.receive; split <;> [rfl; (split <;> rfl)]
@[simp] theorem State.receive_script (s : State) (b : Byte) : (s.receive b).script = s.script := by
  unfold State.receive; split <;> [rfl; (split <;> rfl)]
@[simp] theorem State.receive_sched (s : State) (b : Byte) : (s.receive b).sched = s.sched := by
  unfold State.receive; split <;> [rfl; (split <;> rfl)]

end Receive

section TakeByte

@[simp] theorem State.takeByte_phase (s : State) : (s.takeByte).phase = s.phase := by
  unfold State.takeByte; split <;> rfl
@[simp] theorem State.takeByte_wstate (s : State) : (s.takeByte).wstate = s.wstate := by
  unfold State.takeByte; split <;> rfl
@[simp] theorem State.takeByte_running (s : State) : (s.takeByte).running = s.running := by
  unfold State.takeByte; split <;> rfl
@[simp] theorem State.takeByte_portOpen (s : State) : (s.takeByte).portOpen = s.portOpen := by
  unfold State.takeByte; split <;> rfl
@[simp] theorem State.takeByte_discPending (s : State) : (s.takeByte).discPending = s.discPending := by
  unfold State.takeByte; split <;> rfl
@[simp] theorem State.takeByte_fatalReported (s : State) : (s.takeByte).fatalReported = s.fatalReported := by
  unfold State.takeByte; split <;> rfl
@[simp] theorem State.takeByte_evt (s : State) : (s.takeByte).evt = s.evt := by
  unfold State.takeByte; split <;> rfl
@[simp] theorem State.takeByte_trace (s : State) : (s.takeByte).trace = s.trace := by
  unfold State.takeByte; split <;> rfl
@[simp] theorem State.takeByte_cfg (s : State) : (s.takeByte).cfg = s.cfg := by
  unfold State.takeByte; split <;> rfl
@[simp] theorem State.takeByte_script (s : State) : (s.takeByte).script = s.script := by
  unfold State.takeByte; split <;> rfl
@[simp] theorem State.takeByte_sched (s : State) : (s.takeByte).sched = s.sched := by
  unfold State.takeByte; split <;> rfl

end TakeByte

section FinishFrame

@[simp] theorem State.finishFrame_phase (s : State) (r : Except DiagCode Event) : (s.finishFrame r).phase = s.phase := by
  cases r <;> rfl
@[simp] theorem State.finishFrame_running (s : State) (r : Except DiagCode Event) : (s.finishFrame r).running = s.running := by
  cases r <;> rfl
@[simp] theorem State.finishFrame_portOpen (s : State) (r : Except DiagCode Event) : (s.finishFrame r).portOpen = s.portOpen := by
  cases r <;> rfl
@[simp] theorem State.finishFrame_discPending (s : State) (r : Except DiagCode Event) : (s.finishFrame r).discPending = s.discPending := by
  cases r <;> rfl
@[simp] theorem State.finishFrame_fatalReported (s : State) (r : Except DiagCode Event) : (s.finishFrame r).fatalReported = s.fatalReported := by
  cases r <;> rfl
@[simp] theorem State.finishFrame_rxq (s : State) (r : Except DiagCode Event) : (s.finishFrame r).rxq = s.rxq := by
  cases r <;> rfl
@[simp] theorem State.finishFrame_cfg (s : State) (r : Except DiagCode Event) : (s.finishFrame r).cfg = s.cfg := by
  cases r <;> rfl
@[simp] theorem State.finishFrame_script (s : State) (r : Except DiagCode Event) : (s.finishFrame r).script = s.script := by
  cases r <;> rfl
@[simp] theorem State.finishFrame_sched (s : State) (r : Except DiagCode Event) : (s.finishFrame r).sched = s.sched := by
  cases r <;> rfl

@[simp] theorem State.finishFrame_cnt (s : State) (r : Except DiagCode Event) : (s.finishFrame r).cnt = 0 := by
  cases r <;> rfl
@[simp] theorem State.finishFrame_fb (s : State) (r : Except DiagCode Event) :
    (s.finishFrame r).fb = FrameBuffer.empty := by
  cases r <;> rfl

end FinishFrame

section TakeFatal

@[simp] theorem State.takeFatal_portOpen (s : State) : (s.takeFatal).portOpen = s.portOpen := by
  cases h : s.fatalReported <;> simp [State.takeFatal, h]
@[simp] theorem State.takeFatal_discPending (s : State) : (s.takeFatal).discPending = s.discPending := by
  cases h : s.fatalReported <;> simp [State.takeFatal, h]
@[simp] theorem State.takeFatal_rxq (s : State) : (s.takeFatal).rxq = s.rxq := by
  cases h : s.fatalReported <;> simp [State.takeFatal, h]
@[simp] theorem State.takeFatal_evt (s : State) : (s.takeFatal).evt = s.evt := by
  cases h : s.fatalReported <;> simp [State.takeFatal, h]
@[simp] theorem State.takeFatal_cfg (s : State) : (s.takeFatal).cfg = s.cfg := by
  cases h : s.fatalReported <;> simp [State.takeFatal, h]
@[simp] theorem State.takeFatal_script (s : State) : (s.takeFatal).script = s.script := by
  cases h : s.fatalReported <;> simp [State.takeFatal, h]
@[simp] theorem State.takeFatal_sched (s : State) : (s.takeFatal).sched = s.sched := by
  cases h : s.fatalReported <;> simp [State.takeFatal, h]

@[simp] theorem State.takeFatal_running (s : State) : s.takeFatal.running = false := by
  cases h : s.fatalReported <;> simp [State.takeFatal, h]
@[simp] theorem State.takeFatal_wstate (s : State) : s.takeFatal.wstate = .wNone := by
  cases h : s.fatalReported <;> simp [State.takeFatal, h]
@[simp] theorem State.takeFatal_fatalReported (s : State) : s.takeFatal.fatalReported = true := by
  cases h : s.fatalReported <;> simp [State.takeFatal, h]
@[simp] theorem State.takeFatal_cnt (s : State) : s.takeFatal.cnt = 0 := by
  cases h : s.fatalReported <;> simp [State.takeFatal, h]
@[simp] theorem State.takeFatal_fb (s : State) : s.takeFatal.fb = FrameBuffer.empty := by
  cases h : s.fatalReported <;> simp [State.takeFatal, h]
@[simp] theorem State.takeFatal_phase (s : State) :
    s.takeFatal.phase = if s.phase = .running then .stopping else s.phase := by
  cases h : s.fatalReported <;> simp [State.takeFatal, h]
@[simp] theorem State.takeFatal_trace (s : State) :
    s.takeFatal.trace = if s.fatalReported then s.trace else s.trace ++ [.diag .ioFatal] := by
  cases h : s.fatalReported <;> simp [State.takeFatal, h]

end TakeFatal

end Sys2Proof.Machine
end

