-- ==== Sys2Proof/Laws/Ops.lean ====
section
/-! SUPPORT. What each shared operation can do, said once: the guards as propositions, and one inversion lemma for each
guarded step, queue operation, frame result and fetch. -/

namespace Sys2Proof.Machine

theorem guarded_next {m : String} {g : Bool} {t u : State} :
    guarded m g t = .next u ↔ g = true ∧ u = t := by
  unfold guarded
  cases g <;> simp [eq_comm]

theorem guarded_of {m : String} {g : Bool} {t : State} (h : g = true) : guarded m g t = .next t := by
  simp [guarded, h]

theorem guarded_of_not {m : String} {g : Bool} {t : State} (h : g = false) :
    guarded m g t = .refused (.notEnabled m) := by
  simp [guarded, h]

theorem frameStep_next {m : String} {r : Except DiagCode Event} {s t : State} :
    frameStep m r s = .next t ↔ s.canFrameDone = true ∧ t = s.finishFrame r := by
  unfold frameStep
  cases s.canFrameDone <;> simp [eq_comm]

theorem frameStep_of {m : String} {r : Except DiagCode Event} {s : State} (h : s.canFrameDone = true) :
    frameStep m r s = .next (s.finishFrame r) := by
  simp [frameStep, h]

theorem State.canLoopRun_iff {s : State} : s.canLoopRun = true ↔ s.wstate = .wCheck ∧ s.running = true := by
  simp [State.canLoopRun]

theorem State.canLoopExit_iff {s : State} : s.canLoopExit = true ↔ s.wstate = .wCheck ∧ s.running = false := by
  simp [State.canLoopExit]

theorem State.canByteTake_iff {s : State} :
    s.canByteTake = true ↔ s.wstate = .wRead ∧ s.cnt < 4 ∧ s.rxq ≠ [] := by
  simp [State.canByteTake, and_assoc]

theorem State.canFrameDone_iff {s : State} : s.canFrameDone = true ↔ s.wstate = .wRead ∧ s.cnt = 4 := by
  simp [State.canFrameDone]

theorem State.canJoinDone_iff {s : State} :
    s.canJoinDone = true ↔ s.phase = .stopping ∧ s.discPending = true ∧ s.wstate = .wNone := by
  simp [State.canJoinDone, and_assoc]

theorem State.canExp_iff {s : State} :
    s.canExp = true ↔ s.wstate = .wRead ∧ s.cnt < 4 ∧ s.rxq = [] := by
  simp [State.canExp, and_assoc]

theorem State.canIoerr_iff {s : State} : s.canIoerr = true ↔ s.wstate = .wRead ∧ s.cnt < 4 := by
  simp [State.canIoerr]

theorem State.canCommand_iff {s : State} :
    s.canCommand = true ↔ s.phase ≠ .connecting ∧ (s.phase = .stopping → s.discPending = false) := by
  simp [State.canCommand, State.cmdBusy, imp_iff_not_or]

theorem State.canOpen_iff {s : State} : s.canOpen = true ↔ s.phase = .connecting := by
  simp [State.canOpen]

theorem State.canJoinTo_iff {s : State} :
    s.canJoinTo = true ↔ s.phase = .stopping ∧ s.discPending = true ∧ s.wstate ≠ .wNone := by
  simp [State.canJoinTo, and_assoc]

theorem State.canAck_iff {s : State} : s.canAck = true ↔ s.wstate = .wEmit := by
  simp [State.canAck]

/-- The receiver's rule (R160): the byte is queued on an open port with room, and lost otherwise. -/
theorem State.receive_cases (s : State) (b : Byte) :
    (s.portOpen = true ∧ s.rxq.length < s.cfg.rxDepth ∧ s.receive b = s.qPush b) ∨
      ((s.portOpen = false ∨ s.cfg.rxDepth ≤ s.rxq.length) ∧ s.receive b = s) := by
  unfold State.receive
  cases hp : s.portOpen
  · simp
  · by_cases hl : s.rxq.length < s.cfg.rxDepth
    · simp [hl]
    · simp [hl, Nat.le_of_not_lt hl]

/-- The byte taken is the head of the queue (R163). -/
theorem State.takeByte_cons {s : State} {b : Byte} {rest : List Byte} (h : s.rxq = b :: rest) :
    s.takeByte = { s with rxq := rest, fb := s.fb.put s.cnt b, cnt := s.cnt + 1 } := by
  simp [State.takeByte, h]

/-- A routed frame ends in an event at the sink or in one diagnostic record (R164). -/
theorem State.finishFrame_cases (s : State) (r : Except DiagCode Event) :
    (∃ e, r = .ok e ∧ (s.finishFrame r).evt = some e ∧ (s.finishFrame r).wstate = .wEmit ∧
        (s.finishFrame r).trace = s.trace ++ [.evt e]) ∨
      (∃ c, r = .error c ∧ (s.finishFrame r).evt = s.evt ∧ (s.finishFrame r).wstate = .wCheck ∧
        (s.finishFrame r).trace = s.trace ++ [.diag c]) := by
  cases r with
  | ok e => exact .inl ⟨e, rfl, rfl, rfl, rfl⟩
  | error c => exact .inr ⟨c, rfl, rfl, rfl, rfl⟩

theorem FrameBuffer.bytes_eq_some {f : FrameBuffer} {b0 b1 b2 b3 : Byte} :
    f.bytes = some (b0, b1, b2, b3) ↔ f = ⟨some b0, some b1, some b2, some b3⟩ := by
  obtain ⟨_ | _, _ | _, _ | _, _ | _⟩ := f <;> simp [FrameBuffer.bytes]

/-- FRAME_DONE reads four bytes (R164) or faults on a cell with none (I12). -/
theorem execFrameDone_next {s t : State} :
    execFrameDone s = .next t ↔ ∃ b0 b1 b2 b3, s.fb = ⟨some b0, some b1, some b2, some b3⟩ ∧
      s.canFrameDone = true ∧ t = s.finishFrame (route s.cfg.minDelaySrc b0 b1 b2 b3) := by
  unfold execFrameDone
  split
  · rename_i b0 b1 b2 b3 h
    rw [frameStep_next]
    rw [FrameBuffer.bytes_eq_some] at h
    constructor
    · exact fun ⟨hg, ht⟩ => ⟨b0, b1, b2, b3, h, hg, ht⟩
    · rintro ⟨c0, c1, c2, c3, hf, hg, ht⟩
      rw [h] at hf
      obtain ⟨rfl, rfl, rfl, rfl⟩ : b0 = c0 ∧ b1 = c1 ∧ b2 = c2 ∧ b3 = c3 := by simpa using hf
      exact ⟨hg, ht⟩
  · rename_i h
    constructor
    · intro h'
      split at h' <;> cases h'
    · rintro ⟨b0, b1, b2, b3, hf, -, -⟩
      rw [FrameBuffer.bytes_eq_some.mpr hf] at h
      cases h

/-- The one internal step of a state is the one whose guard holds (R172). -/
theorem State.nextInternal_cases (s : State) :
    (s.nextInternal = some .frameDone ∧ s.canFrameDone = true) ∨
      (s.nextInternal = some .byteTake ∧ s.canByteTake = true) ∨
      (s.nextInternal = some .loopTestRun ∧ s.canLoopRun = true) ∨
      (s.nextInternal = some .loopTestExit ∧ s.canLoopExit = true) ∨
      (s.nextInternal = some .joinDone ∧ s.canJoinDone = true) ∨
      (s.nextInternal = none ∧ s.canFrameDone = false ∧ s.canByteTake = false ∧ s.canLoopRun = false ∧
        s.canLoopExit = false ∧ s.canJoinDone = false) := by
  unfold State.nextInternal
  repeat' split
  all_goals simp_all

/-- Configuring the path changes what a port-open request asks for, and nothing but that parameter. -/
theorem State.configurePath_spec (s : State) (path : List Char) :
    (s.configurePath path).portSettings = { s.portSettings with path := path } ∧
      s.configurePath path = { s with cfg := { s.cfg with portPath := path } } := ⟨rfl, rfl⟩

/-- Where a fetched code comes from: the enabled internal step, or the head of the script. Only the inputs are used up. -/
theorem State.fetch_cases {s t : State} {c : Code} (h : s.fetch = some (c, t)) :
    (∃ k, s.nextInternal = some k ∧ c = s.internalCode k ∧
        (t = s ∨ ∃ ts, s.sched = .internal :: ts ∧ t = { s with sched := ts })) ∨
      (∃ w ws, s.script = w :: ws ∧ c = .stim w ∧
        ((s.nextInternal = none ∧ t = { s with script := ws }) ∨
          ∃ ts, s.sched = .stimulus :: ts ∧ t = { s with script := ws, sched := ts })) := by
  unfold State.fetch at h
  split at h
  · cases h
  · rename_i w ws hn hw
    obtain ⟨rfl, rfl⟩ : Code.stim w = c ∧ { s with script := ws } = t := by simpa using h
    exact .inr ⟨w, ws, hw, rfl, .inl ⟨hn, rfl⟩⟩
  · rename_i k hn hw
    obtain ⟨rfl, rfl⟩ : s.internalCode k = c ∧ s = t := by simpa using h
    exact .inl ⟨k, hn, rfl, .inl rfl⟩
  · rename_i k w ws hn hw
    split at h
    · obtain ⟨rfl, rfl⟩ : s.internalCode k = c ∧ s = t := by simpa using h
      exact .inl ⟨k, hn, rfl, .inl rfl⟩
    · rename_i ts hs
      obtain ⟨rfl, rfl⟩ : s.internalCode k = c ∧ { s with sched := ts } = t := by simpa using h
      exact .inl ⟨k, hn, rfl, .inr ⟨ts, hs, rfl⟩⟩
    · rename_i ts hs
      obtain ⟨rfl, rfl⟩ : Code.stim w = c ∧ { s with script := ws, sched := ts } = t := by simpa using h
      exact .inr ⟨w, ws, hw, rfl, .inr ⟨ts, hs, rfl⟩⟩

end Sys2Proof.Machine
end

