-- ==== Sys2Proof/Laws/Buffer.lean ====
section
/-! SUPPORT. The frame buffer by its fill: what a put, an empty and a full buffer hold (10_state.md R30). -/

namespace Sys2Proof.Machine

@[simp] theorem FrameBuffer.held_empty : FrameBuffer.empty.held = [] := rfl

@[simp] theorem FrameBuffer.filledTo_empty : FrameBuffer.empty.filledTo 0 = true := rfl

/-- A buffer with no byte is the empty one. -/
theorem FrameBuffer.eq_empty_of_filledTo_zero {f : FrameBuffer} (h : f.filledTo 0 = true) : f = FrameBuffer.empty := by
  rcases f with ⟨_ | _, _ | _, _ | _, _ | _⟩ <;> first | rfl | cases h

/-- A full buffer holds four bytes. -/
theorem FrameBuffer.eq_full_of_filledTo_four {f : FrameBuffer} (h : f.filledTo 4 = true) :
    ∃ b0 b1 b2 b3, f = ⟨some b0, some b1, some b2, some b3⟩ := by
  rcases f with ⟨_ | b0, _ | b1, _ | b2, _ | b3⟩ <;> first | exact ⟨b0, b1, b2, b3, rfl⟩ | cases h

/-- BYTE_TAKE fills the next cell (R163). -/
theorem FrameBuffer.filledTo_put {f : FrameBuffer} {c : Fin 5} {b : Byte} (hc : c < 4) (h : f.filledTo c = true) :
    (f.put c b).filledTo (c + 1) = true := by
  rcases f with ⟨_ | _, _ | _, _ | _, _ | _⟩ <;> fin_cases c <;>
    first | rfl | exact absurd hc (by decide) | cases h

/-- BYTE_TAKE keeps the bytes in arrival order (R163). -/
theorem FrameBuffer.held_put {f : FrameBuffer} {c : Fin 5} {b : Byte} (hc : c < 4) (h : f.filledTo c = true) :
    (f.put c b).held = f.held ++ [b] := by
  rcases f with ⟨_ | _, _ | _, _ | _, _ | _⟩ <;> fin_cases c <;>
    first | rfl | exact absurd hc (by decide) | cases h

/-- A fetch uses up inputs and nothing else. -/
theorem State.fetch_inputs {s t : State} {c : Code} (h : s.fetch = some (c, t)) :
    ∃ a b, t = { s with script := a, sched := b } := by
  rcases State.fetch_cases h with ⟨k, -, -, rfl | ⟨ts, -, rfl⟩⟩ | ⟨w, ws, -, -, ⟨-, rfl⟩ | ⟨ts, -, rfl⟩⟩
  all_goals exact ⟨_, _, rfl⟩

/-- The invariant does not depend on the inputs or on the trace. -/
theorem Inv.congr_inputs {s : State} (h : Inv s) (tr : List Record) (a : List StimWord) (b : List Turn) :
    Inv { s with trace := tr, script := a, sched := b } :=
  ⟨h.running, h.fresh, h.closed, h.stopping, h.pending, h.event, h.full, h.noWindow, h.runningPhase,
    h.queueBound, h.depth, h.cells, h.fatal⟩

end Sys2Proof.Machine
end

