-- ==== Sys2Proof/Laws/Exec.lean ====
section
/-! SUPPORT. What an instruction can do, said once: if `exec i s` answers `next t`, then one of the listed cases holds. -/

namespace Sys2Proof.Machine

/-- The router's drop codes are never the code of the fatal error (R222). -/
theorem route_ne_ioFatal (src : MinDelaySrc) (b0 b1 b2 b3 : Byte) : route src b0 b1 b2 b3 ≠ .error .ioFatal := by
  intro h
  unfold route at h
  split at h
  · cases h
  · split at h
    · cases h
    · rename_i r _
      unfold dropCode at h
      split at h
      · cases h
      · cases r <;> cases h

/-- Every next state of every instruction. -/
inductive ExecCases (i : Instr) (s t : State) : Prop where
  | frame (r : Except DiagCode Event) (hi : isFrameRow i = true) (hr : r ≠ .error .ioFatal)
      (hg : s.canFrameDone = true) (ht : t = s.finishFrame r)
  | rx (b : Byte) (hi : i = .rx b) (ht : t = s.receive b)
  | exp (hi : i = .exp) (hg : s.canExp = true) (ht : t = { s.clearWindow with wstate := .wCheck })
  | ioerr (hi : i = .ioerr) (hg : s.canIoerr = true) (ht : t = s.takeFatal)
  | connAccept (hi : i = .conn) (hp : s.phase = .idle)
      (ht : t = { s with phase := .connecting }.emit .portOpenReq)
  | connRefuse (hi : i = .conn) (hg : s.canCommand = true) (hp : s.phase ≠ .idle)
      (ht : t = s.emit (.doneConn false))
  | openOk (hi : i = .openOk) (hp : s.phase = .connecting)
      (ht : t = { s with portOpen := true, rxq := [], running := true, wstate := .wCheck,
                         phase := .running }.emit (.doneConn true))
  | openFail (hi : i = .openFail) (hp : s.phase = .connecting)
      (ht : t = { s with phase := .idle }.emit (.doneConn false))
  | discIdle (hi : i = .disc) (hp : s.phase = .idle) (ht : t = { s with phase := .closed }.emit .doneDisc)
  | discRunning (hi : i = .disc) (hp : s.phase = .running)
      (ht : t = { s with running := false, discPending := true, phase := .stopping })
  | discAfterFault (hi : i = .disc) (hp : s.phase = .stopping) (hd : s.discPending = false)
      (ht : t = { s with discPending := true })
  | discClosed (hi : i = .disc) (hp : s.phase = .closed) (ht : t = s.emit .doneDisc)
  | joinTo (hi : i = .joinTo) (hg : s.canJoinTo = true) (ht : t = s.closePort)
  | ack (hi : i = .ack) (hg : s.canAck = true) (ht : t = { s with evt := none, wstate := .wCheck })
  | rst (hi : i = .rst) (ht : t = s.toReset)
  | loopTestRun (hi : i = .loopTestRun) (hg : s.canLoopRun = true)
      (ht : t = { s.clearWindow with wstate := .wRead })
  | loopTestExit (hi : i = .loopTestExit) (hg : s.canLoopExit = true) (ht : t = { s with wstate := .wNone })
  | byteTake (hi : i = .byteTake) (hg : s.canByteTake = true) (ht : t = s.takeByte)
  | joinDone (hi : i = .joinDone) (hg : s.canJoinDone = true) (ht : t = s.closePort)

/-- A frame class ends as `finishFrame` says. -/
theorem execCases_of_frameStep {i : Instr} {m : String} {r : Except DiagCode Event} {s t : State}
    (hi : isFrameRow i = true) (hr : r ≠ .error .ioFatal) (h : frameStep m r s = .next t) : ExecCases i s t :=
  .frame r hi hr (frameStep_next.mp h).1 (frameStep_next.mp h).2

theorem execCases_conn {s t : State} (h : execConn s = .next t) : ExecCases .conn s t := by
  obtain ⟨hg, ht⟩ := guarded_next.mp h
  split at ht
  · rename_i hp; exact .connAccept rfl hp ht
  · rename_i hp; exact .connRefuse rfl hg hp ht

theorem execCases_disc {s t : State} (h : execDisc s = .next t) : ExecCases .disc s t := by
  obtain ⟨hg, ht⟩ := guarded_next.mp h
  rw [State.canCommand_iff] at hg
  unfold State.disconnect at ht
  split at ht <;> rename_i hp
  · exact .discIdle rfl hp ht
  · exact .discRunning rfl hp ht
  · exact .discAfterFault rfl hp (hg.2 hp) ht
  · exact .discClosed rfl hp ht
  · exact absurd hp hg.1

/-- The inversion of `exec`: what a next state can be. -/
theorem exec_cases {i : Instr} {s t : State} (h : exec i s = .next t) : ExecCases i s t := by
  cases i
  case rx b => exact .rx b rfl (by simpa [exec, execRx, eq_comm] using h)
  case exp => exact .exp rfl (guarded_next.mp h).1 (guarded_next.mp h).2
  case ioerr => exact .ioerr rfl (guarded_next.mp h).1 (guarded_next.mp h).2
  case conn => exact execCases_conn h
  case openOk => exact .openOk rfl (State.canOpen_iff.mp (guarded_next.mp h).1) (guarded_next.mp h).2
  case openFail => exact .openFail rfl (State.canOpen_iff.mp (guarded_next.mp h).1) (guarded_next.mp h).2
  case disc => exact execCases_disc h
  case joinTo => exact .joinTo rfl (guarded_next.mp h).1 (guarded_next.mp h).2
  case ack => exact .ack rfl (guarded_next.mp h).1 (guarded_next.mp h).2
  case rst => exact .rst rfl (by simpa [exec, execRst, eq_comm] using h)
  case reservedStim w => cases h
  case loopTestRun => exact .loopTestRun rfl (guarded_next.mp h).1 (guarded_next.mp h).2
  case loopTestExit => exact .loopTestExit rfl (guarded_next.mp h).1 (guarded_next.mp h).2
  case byteTake => exact .byteTake rfl (guarded_next.mp h).1 (guarded_next.mp h).2
  case frameDone =>
    obtain ⟨b0, b1, b2, b3, -, hg, ht⟩ := execFrameDone_next.mp h
    exact .frame _ rfl (route_ne_ioFatal _ _ _ _ _) hg ht
  case joinDone => exact .joinDone rfl (guarded_next.mp h).1 (guarded_next.mp h).2
  all_goals exact execCases_of_frameStep rfl (by simp) h

end Sys2Proof.Machine
end

