-- ==== Sys2Proof/Laws/PerInstr.lean ====
section
/-! SUPPORT. Per instruction: the code of a well-formed instruction has the format and the fixed bits of its row of
spec/opcode_table.json. -/

namespace Sys2Proof.Laws.EncodeFitsRow

open Sys2Proof.Machine

/-- The code of `i` fits the row of `i`. -/
def Statement (i : Instr) : Prop := i.wellFormed = true → (rowBits i).fits (encode i) = true

/-- A frame keeps the bits of a mask exactly when each of its bytes does. -/
theorem packFrame_and (b0 b1 b2 b3 m0 m1 m2 m3 : Byte) :
    packFrame b0 b1 b2 b3 &&& packFrame m0 m1 m2 m3 =
      packFrame (b0 &&& m0) (b1 &&& m1) (b2 &&& m2) (b3 &&& m3) := by
  apply BitVec.eq_of_getLsbD_eq
  intro i hi
  simp only [BitVec.getLsbD_and, packFrame_getLsbD]
  split_ifs <;> rfl

theorem nibble_and (n x : Nibble) : (n ++ x) &&& 0xF0#8 = n ++ 0#4 := by
  revert n x; decide

theorem secFunctionByte_and (f : SecFrame) : secFunctionByte f &&& 0x7A#8 = 0#8 := by
  have h : ∀ c b l : Bool,
      (BitVec.ofBool c ++ 0#4 ++ BitVec.ofBool b ++ 0#1 ++ BitVec.ofBool l : Byte) &&& 0x7A#8 = 0#8 := by decide
  exact h f.closed f.bit2 f.lowBattery

/-- The fixed bits of a SEC_n row. -/
theorem secWord_fits (n : Nibble) (f : SecFrame) (v : FrameWord)
    (h : v = packFrame (n ++ 0#4) (n ++ 0#4) 0#8 0#8) :
    (RowBits.frame32 0xF0F07A00 v).fits (.frame (secWord n f)) = true := by
  have hm : (0xF0F07A00 : FrameWord) = packFrame 0xF0#8 0xF0#8 0x7A#8 0x00#8 := by decide
  simp [RowBits.fits, secWord, hm, packFrame_and, nibble_and, secFunctionByte_and, h]

/-- The fixed bits of an X10 row lie in its last two bytes. -/
theorem x10Word_fits (b0 b2 m2 m3 v2 v3 : Byte) (m v : FrameWord)
    (hm : m = packFrame 0#8 0#8 m2 m3) (hv : v = packFrame 0#8 0#8 v2 v3)
    (h2 : b2 &&& m2 = v2) (h3 : ~~~b2 &&& m3 = v3) :
    (RowBits.frame32 m v).fits (.frame (x10Word b0 b2)) = true := by
  simp [RowBits.fits, x10Word, hm, hv, packFrame_and, h2, h3]

theorem sec0 (f : SecFrame) : Statement (.sec0 f) := fun _ =>
  secWord_fits 0x0#4 f _ (by decide)
theorem sec1 (f : SecFrame) : Statement (.sec1 f) := fun _ =>
  secWord_fits 0x1#4 f _ (by decide)
theorem sec2 (f : SecFrame) : Statement (.sec2 f) := fun _ =>
  secWord_fits 0x2#4 f _ (by decide)
theorem sec3 (f : SecFrame) : Statement (.sec3 f) := fun _ =>
  secWord_fits 0x3#4 f _ (by decide)
theorem sec4 (f : SecFrame) : Statement (.sec4 f) := fun _ =>
  secWord_fits 0x4#4 f _ (by decide)
theorem sec5 (f : SecFrame) : Statement (.sec5 f) := fun _ =>
  secWord_fits 0x5#4 f _ (by decide)
theorem sec6 (f : SecFrame) : Statement (.sec6 f) := fun _ =>
  secWord_fits 0x6#4 f _ (by decide)
theorem sec7 (f : SecFrame) : Statement (.sec7 f) := fun _ =>
  secWord_fits 0x7#4 f _ (by decide)
theorem sec8 (f : SecFrame) : Statement (.sec8 f) := fun _ =>
  secWord_fits 0x8#4 f _ (by decide)
theorem sec9 (f : SecFrame) : Statement (.sec9 f) := fun _ =>
  secWord_fits 0x9#4 f _ (by decide)
theorem secA (f : SecFrame) : Statement (.secA f) := fun _ =>
  secWord_fits 0xA#4 f _ (by decide)
theorem secB (f : SecFrame) : Statement (.secB f) := fun _ =>
  secWord_fits 0xB#4 f _ (by decide)
theorem secC (f : SecFrame) : Statement (.secC f) := fun _ =>
  secWord_fits 0xC#4 f _ (by decide)
theorem secD (f : SecFrame) : Statement (.secD f) := fun _ =>
  secWord_fits 0xD#4 f _ (by decide)
theorem secE (f : SecFrame) : Statement (.secE f) := fun _ =>
  secWord_fits 0xE#4 f _ (by decide)
theorem secF (f : SecFrame) : Statement (.secF f) := fun _ =>
  secWord_fits 0xF#4 f _ (by decide)
theorem dropSecMask (b0 b1 b2 b3 : Byte) : Statement (.dropSecMask b0 b1 b2 b3) := fun _ => by
  simp [rowBits, RowBits.fits, encode]
theorem dropChecksum (b0 b1 b2 b3 : Byte) : Statement (.dropChecksum b0 b1 b2 b3) := fun _ => by
  simp [rowBits, RowBits.fits, encode]
theorem x10Off19 (b0 : Byte) : Statement (.x10Off19 b0) := fun _ =>
  x10Word_fits b0 _ 0xFF#8 0xFF#8 0x98#8 0x67#8 _ _ (by decide) (by decide) (by decide) (by decide)
theorem x10On11 (b0 : Byte) : Statement (.x10On11 b0) := fun _ =>
  x10Word_fits b0 _ 0xFF#8 0xFF#8 0x88#8 0x77#8 _ _ (by decide) (by decide) (by decide) (by decide)
theorem x10Off (b0 b2 : Byte) : Statement (.x10Off b0 b2) := fun h =>
  x10Word_fits b0 b2 0xA0#8 0x00#8 0x20#8 0x00#8 _ _ (by decide) (by decide) (by revert h; simp only [Instr.wellFormed]; revert b2; decide)
    (by simp)
theorem x10On (b0 b2 : Byte) : Statement (.x10On b0 b2) := fun h =>
  x10Word_fits b0 b2 0xA0#8 0x00#8 0x00#8 0x00#8 _ _ (by decide) (by decide) (by revert h; simp only [Instr.wellFormed]; revert b2; decide)
    (by simp)
theorem dropUnsupportedCmd (b0 b2 : Byte) : Statement (.dropUnsupportedCmd b0 b2) := fun h =>
  x10Word_fits b0 b2 0x80#8 0x00#8 0x80#8 0x00#8 _ _ (by decide) (by decide) (by revert h; simp only [Instr.wellFormed]; revert b2; decide)
    (by simp)
theorem rx (b : Byte) : Statement (.rx b) := fun _ => by revert b; decide
theorem exp : Statement .exp := fun _ => by decide
theorem ioerr : Statement .ioerr := fun _ => by decide
theorem conn : Statement .conn := fun _ => by decide
theorem openOk : Statement .openOk := fun _ => by decide
theorem openFail : Statement .openFail := fun _ => by decide
theorem disc : Statement .disc := fun _ => by decide
theorem joinTo : Statement .joinTo := fun _ => by decide
theorem ack : Statement .ack := fun _ => by decide
theorem rst : Statement .rst := fun _ => by decide
theorem reservedStim (w : StimWord) : Statement (.reservedStim w) := fun _ => by
  simp [rowBits, RowBits.fits, encode]
theorem loopTestRun : Statement .loopTestRun := fun _ => by decide
theorem loopTestExit : Statement .loopTestExit := fun _ => by decide
theorem byteTake : Statement .byteTake := fun _ => by decide
theorem frameDone : Statement .frameDone := fun _ => by decide
theorem joinDone : Statement .joinDone := fun _ => by decide

end Sys2Proof.Laws.EncodeFitsRow
end

