-- ==== Sys2Proof/Laws/Timed.lean ====
section
/-! SUPPORT. The timed wrapper (60_exceptions.md R231, R232; 70_reset_and_hazards.md R257): its conditions as propositions, and
what a step and a tick of it can do. -/

namespace Sys2Proof.Machine

theorem TimedState.windowOver_iff {t : TimedState} : t.windowOver = true ↔ t.tOpen + 1000 ≤ t.now := decide_eq_true_iff

theorem TimedState.joinOver_iff {t : TimedState} : t.joinOver = true ↔ t.tDisc + Config.tJoinMs ≤ t.now :=
  decide_eq_true_iff

theorem TimedState.expDue_iff {t : TimedState} :
    t.expDue = true ↔ t.base.canExp = true ∧ t.tOpen + 1000 ≤ t.now := by
  rw [TimedState.expDue, Bool.and_eq_true, TimedState.windowOver_iff]

theorem TimedState.joinDue_iff {t : TimedState} :
    t.joinDue = true ↔ t.base.phase = .stopping ∧ t.base.discPending = true ∧ t.tDisc + Config.tJoinMs ≤ t.now := by
  simp only [TimedState.joinDue, Bool.and_eq_true, decide_eq_true_eq, TimedState.joinOver_iff, and_assoc]

/-- `P_T_JOIN` is positive (R7). -/
theorem Config.tJoinMs_pos : 0 < Config.tJoinMs := Nat.succ_pos _

@[simp] theorem TimedState.after_base (t : TimedState) (i : Instr) (b : State) : (t.after i b).base = b := rfl

@[simp] theorem TimedState.after_now (t : TimedState) (i : Instr) (b : State) : (t.after i b).now = t.now := rfl

@[simp] theorem TimedState.after_tOpen (t : TimedState) (i : Instr) (b : State) :
    (t.after i b).tOpen = if i = .loopTestRun then t.now else t.tOpen := rfl

@[simp] theorem TimedState.after_tDisc (t : TimedState) (i : Instr) (b : State) :
    (t.after i b).tDisc = if i = .disc ∧ b.discPending = true then t.now else t.tDisc := rfl

/-- A tick that is not refused passes one millisecond with nothing due. -/
theorem TimedState.tick_next {t u : TimedState} :
    t.tick = .next u ↔ t.expDue = false ∧ t.joinDue = false ∧ u = { t with now := t.now + 1 } := by
  unfold TimedState.tick
  cases t.expDue <;> cases t.joinDue <;> simp [eq_comm]

/-- A timed step waits where the untimed one does; otherwise it is the untimed step of the fetched code, no expiry before its
time, with the timers that step starts. -/
theorem TimedState.act_next {t u : TimedState} :
    t.act = .next u ↔
      (t.base.fetch = none ∧ u = t) ∨
        ∃ c s b, t.base.fetch = some (c, s) ∧ (decode c = .exp → t.windowOver = true) ∧
          (decode c = .joinTo → t.joinOver = true) ∧ exec (decode c) s = .next b ∧ u = t.after (decode c) b := by
  unfold TimedState.act
  constructor
  · intro h
    split at h
    · rename_i hf
      exact .inl ⟨hf, (Host.Outcome.next.inj h).symm⟩
    · rename_i c s hf
      split_ifs at h with h1 h2
      split at h <;> cases h
      rename_i b hx
      refine .inr ⟨c, s, b, hf, fun e => ?_, fun e => ?_, hx, rfl⟩
      · exact (Bool.not_eq_false _).mp fun w => h1 ⟨e, w⟩
      · exact (Bool.not_eq_false _).mp fun w => h2 ⟨e, w⟩
  · rintro (⟨hf, rfl⟩ | ⟨c, s, b, hf, h1, h2, hx, rfl⟩)
    · simp only [hf]
    · have n1 : ¬ (decode c = .exp ∧ t.windowOver = false) := fun e => by simp [h1 e.1] at e
      have n2 : ¬ (decode c = .joinTo ∧ t.joinOver = false) := fun e => by simp [h2 e.1] at e
      simp only [hf, if_neg n1, if_neg n2, hx]

end Sys2Proof.Machine
end

