-- ==== Sys2Proof/Tests/Slice0.lean ====
section
/-! SUPPORT. Tests of single steps and single words. Expected results are the vectors of spec/95_test_vectors.md, named by their
ids, or are worked out from the rule a test names. The `witness_` theorems show, for each obligation with hypotheses, values
that meet them, one for each clause. -/

namespace Sys2Proof.Tests

open Sys2Proof.Machine

/-! ### Helpers -/

/-- The next state of an outcome. -/
def next? (o : Host.Outcome State Fault Refusal) : Option State :=
  match o with
  | .next t => some t
  | .fault _ => none
  | .refused _ => none

/-- The refusal of an outcome. -/
def refusal? (o : Host.Outcome State Fault Refusal) : Option Refusal :=
  match o with
  | .next _ => none
  | .fault _ => none
  | .refused r => some r

/-- The record words a step appends, for a state with an empty trace. -/
def records (o : Host.Outcome State Fault Refusal) : Option (List (BitVec 20)) :=
  (next? o).map (fun t => t.trace.map Record.word)

/-- Connecting, after `CONN` (C-1 without its record). -/
def connecting : State := { State.reset with phase := .connecting }

/-- Running, with the worker at the top of its loop (C-3 without its record). -/
def looping : State := { State.reset with phase := .running, running := true, portOpen := true, wstate := .wCheck }

/-- Running, with an open read window. -/
def reading (n : Fin 5) (f : FrameBuffer) (q : List Byte) : State :=
  { looping with wstate := .wRead, cnt := n, fb := f, rxq := q }

/-- Running, with a full read window. -/
def full (b0 b1 b2 b3 : Byte) : State := reading 4 ⟨some b0, some b1, some b2, some b3⟩ []

/-- An open window with nothing taken and nothing queued. -/
def idleWindow : State := reading 0 FrameBuffer.empty []

/-- An X10 event in hand: A, 1, On (X-1). -/
def a1On : Event := .x10 { house := 0, unit := some 1#6, cmd := .on }

/-- Running, waiting for the sink. -/
def emitting : State := { looping with wstate := .wEmit, evt := some a1On }

/-- Stopping after a fatal error: the worker is gone, and the port is open (C-10 before it). -/
def faulted : State :=
  { State.reset with phase := .stopping, portOpen := true, fatalReported := true, rxq := [0x22#8] }

/-- A disconnect waiting on a worker that has exited (C-11). -/
def exited : State := { faulted with discPending := true }

/-- A disconnect waiting on a worker at the top of its loop (A-5). -/
def stoppingCheck : State := { looping with phase := .stopping, running := false, discPending := true }

/-- A disconnect waiting on a worker inside a window with two bytes taken (C-13). -/
def stoppingRead : State :=
  { reading 2 ⟨some 0x60#8, some 0x9F#8, none, none⟩ [] with
    phase := .stopping, running := false, discPending := true }

/-- An orphan inside a window (A-15). -/
def orphan : State := { State.reset with phase := .closed, wstate := .wRead }

/-- A finished instance. -/
def closedState : State := { State.reset with phase := .closed }

/-- The security frame of V-S2: address nibbles 6 and 5, Closed, low battery. -/
def sec65 : SecFrame := ⟨0x6#4, 0x5#4, true, false, true, 0x00#8⟩

/-! ### WellFormed refuses an ill-formed term of each check (R74, R80) -/

theorem test_ill_dropSecMask_class : (Instr.dropSecMask 0x12 0x34 0x10 0x00).wellFormed = false := by decide

theorem test_ill_dropSecMask_mask : (Instr.dropSecMask 0x56 0x55 0x81 0x00).wellFormed = false := by decide

theorem test_ill_dropChecksum_class : (Instr.dropChecksum 0x56 0x55 0x81 0x00).wellFormed = false := by decide

theorem test_ill_dropChecksum_pairs : (Instr.dropChecksum 0x60 0x9F 0x00 0xFF).wellFormed = false := by decide

theorem test_ill_x10Off :
    (Instr.x10Off 0x60 0x00).wellFormed = false ∧ (Instr.x10Off 0x60 0xA0).wellFormed = false := by decide

theorem test_ill_x10On :
    (Instr.x10On 0x60 0x20).wellFormed = false ∧ (Instr.x10On 0x60 0x80).wellFormed = false := by decide

theorem test_ill_dropUnsupportedCmd :
    (Instr.dropUnsupportedCmd 0x60 0x98).wellFormed = false ∧
      (Instr.dropUnsupportedCmd 0x60 0x88).wellFormed = false ∧
      (Instr.dropUnsupportedCmd 0x60 0x00).wellFormed = false := by decide

theorem test_ill_reservedStim :
    (Instr.reservedStim 0x1056).wellFormed = false ∧ (Instr.reservedStim 0xF000).wellFormed = false := by decide

/-! ### Words written out from the tables decode to their rows (R71, R72, R74, R78, R80) -/

theorem test_decode_sec0 :
    decode (.frame 0x01070000#32) = .sec0 ⟨0x1, 0x7, false, false, false, 0x00⟩ := by decide

theorem test_decode_sec1 :
    decode (.frame 0x12180111#32) = .sec1 ⟨0x2, 0x8, false, false, true, 0x11⟩ := by decide

theorem test_decode_sec2 :
    decode (.frame 0x23290422#32) = .sec2 ⟨0x3, 0x9, false, true, false, 0x22⟩ := by decide

theorem test_decode_sec3 :
    decode (.frame 0x343A0533#32) = .sec3 ⟨0x4, 0xA, false, true, true, 0x33⟩ := by decide

theorem test_decode_sec4 :
    decode (.frame 0x454B8044#32) = .sec4 ⟨0x5, 0xB, true, false, false, 0x44⟩ := by decide

theorem test_decode_sec5 :
    decode (.frame 0x565C8155#32) = .sec5 ⟨0x6, 0xC, true, false, true, 0x55⟩ := by decide

theorem test_decode_sec6 :
    decode (.frame 0x676D8466#32) = .sec6 ⟨0x7, 0xD, true, true, false, 0x66⟩ := by decide

theorem test_decode_sec7 :
    decode (.frame 0x787E8577#32) = .sec7 ⟨0x8, 0xE, true, true, true, 0x77⟩ := by decide

theorem test_decode_sec8 :
    decode (.frame 0x898F0088#32) = .sec8 ⟨0x9, 0xF, false, false, false, 0x88⟩ := by decide

theorem test_decode_sec9 :
    decode (.frame 0x9A900199#32) = .sec9 ⟨0xA, 0x0, false, false, true, 0x99⟩ := by decide

theorem test_decode_secA :
    decode (.frame 0xABA104AA#32) = .secA ⟨0xB, 0x1, false, true, false, 0xAA⟩ := by decide

theorem test_decode_secB :
    decode (.frame 0xBCB205BB#32) = .secB ⟨0xC, 0x2, false, true, true, 0xBB⟩ := by decide

theorem test_decode_secC :
    decode (.frame 0xCDC380CC#32) = .secC ⟨0xD, 0x3, true, false, false, 0xCC⟩ := by decide

theorem test_decode_secD :
    decode (.frame 0xDED481DD#32) = .secD ⟨0xE, 0x4, true, false, true, 0xDD⟩ := by decide

theorem test_decode_secE :
    decode (.frame 0xEFE584EE#32) = .secE ⟨0xF, 0x5, true, true, false, 0xEE⟩ := by decide

theorem test_decode_secF :
    decode (.frame 0xF0F685FF#32) = .secF ⟨0x0, 0x6, true, true, true, 0xFF⟩ := by decide

/-- R-2. -/
theorem test_decode_dropSecMask :
    decode (.frame 0x56551000#32) = .dropSecMask 0x56 0x55 0x10 0x00 := by decide

/-- R-3. -/
theorem test_decode_dropChecksum :
    decode (.frame 0x12345678#32) = .dropChecksum 0x12 0x34 0x56 0x78 := by decide

/-- X-23 and X-24. -/
theorem test_decode_dropChecksum_one_pair :
    decode (.frame 0x609E00FF#32) = .dropChecksum 0x60 0x9E 0x00 0xFF ∧
      decode (.frame 0x609F00FE#32) = .dropChecksum 0x60 0x9F 0x00 0xFE := by decide

/-- X-11. -/
theorem test_decode_x10Off19 : decode (.frame 0x649B9867#32) = .x10Off19 0x64 := by decide

/-- X-13. -/
theorem test_decode_x10On11 : decode (.frame 0x649B8877#32) = .x10On11 0x64 := by decide

/-- X-9. -/
theorem test_decode_x10Off : decode (.frame 0x649B7887#32) = .x10Off 0x64 0x78 := by decide

/-- X-19. -/
theorem test_decode_x10On : decode (.frame 0x649B5FA0#32) = .x10On 0x64 0x5F := by decide

/-- X-15. -/
theorem test_decode_dropUnsupportedCmd :
    decode (.frame 0x609FA05F#32) = .dropUnsupportedCmd 0x60 0xA0 := by decide

theorem test_decode_rx : decode (.stim 0x1056#16) = .rx 0x56 := by decide

theorem test_decode_exp : decode (.stim 0x2000#16) = .exp := by decide

theorem test_decode_ioerr : decode (.stim 0x3000#16) = .ioerr := by decide

theorem test_decode_conn : decode (.stim 0x4000#16) = .conn := by decide

theorem test_decode_openOk : decode (.stim 0x5000#16) = .openOk := by decide

theorem test_decode_openFail : decode (.stim 0x6000#16) = .openFail := by decide

theorem test_decode_disc : decode (.stim 0x7000#16) = .disc := by decide

theorem test_decode_joinTo : decode (.stim 0x8000#16) = .joinTo := by decide

theorem test_decode_ack : decode (.stim 0x9000#16) = .ack := by decide

theorem test_decode_rst : decode (.stim 0xF000#16) = .rst := by decide

/-- The refused words of L2.4. -/
theorem test_decode_reservedStim :
    decode (.stim 0x0000#16) = .reservedStim 0x0000 ∧
      decode (.stim 0xA000#16) = .reservedStim 0xA000 ∧
      decode (.stim 0xE000#16) = .reservedStim 0xE000 ∧
      decode (.stim 0x1100#16) = .reservedStim 0x1100 ∧
      decode (.stim 0x2001#16) = .reservedStim 0x2001 := by decide

theorem test_decode_internal :
    decode (.internal .loopTestRun) = .loopTestRun ∧ decode (.internal .loopTestExit) = .loopTestExit ∧
      decode (.internal .byteTake) = .byteTake ∧ decode (.internal .frameDone) = .frameDone ∧
      decode (.internal .joinDone) = .joinDone := by decide

/-- R70: four bytes and no other length. -/
theorem test_decode_bytes :
    decodeFrameBytes [0x56, 0x55, 0x81, 0x00] = .ok (.sec5 sec65) ∧
      decodeFrameBytes [] = .error (.frameLength 0) ∧
      decodeFrameBytes [0x60, 0x9F, 0x20] = .error (.frameLength 3) := by decide

theorem test_decodeTableWord :
    decodeTableWord 32 0x56558100 = some (.sec5 sec65) ∧ decodeTableWord 16 0x4000 = some .conn ∧
      decodeTableWord 8 0x40 = none := by decide

/-! ### Parts of the decoders (L2.1, L2.2) -/

theorem test_rev8 :
    [0xB0#8, 0x06#8, 0x60#8, 0x64#8, 0x98#8, 0x88#8, 0x01#8, 0x80#8, 0xFF#8, 0x00#8, 0x5A#8].map rev8 =
      [0x0D#8, 0x60#8, 0x06#8, 0x26#8, 0x19#8, 0x11#8, 0x80#8, 0x01#8, 0xFF#8, 0x00#8, 0x5A#8] := by decide

theorem test_house_letters :
    [0x00#8, 0x10#8, 0x20#8, 0x30#8, 0x40#8, 0x50#8, 0x60#8, 0x70#8, 0x80#8, 0x90#8, 0xA0#8, 0xB0#8, 0xC0#8,
        0xD0#8, 0xE0#8, 0xF0#8].map (fun b => renderHouse (house b)) =
      [0x4D#8, 0x4E#8, 0x4F#8, 0x50#8, 0x43#8, 0x44#8, 0x41#8, 0x42#8, 0x45#8, 0x46#8, 0x47#8, 0x48#8, 0x4B#8,
        0x4C#8, 0x49#8, 0x4A#8] := by decide

theorem test_checksum :
    ck 0x06 0xF9 0x00 0xFF = true ∧ ck 0x60 0x9E 0x00 0xFF = false ∧ ck 0x60 0x9F 0x00 0xFE = false ∧
      ck 0x00 0x00 0x00 0x00 = false ∧ ck 0xFF 0x00 0x00 0xFF = true := by decide

theorem test_unit_extremes :
    unitBase (rev8 0x60) (rev8 0x00) = 1#6 ∧ unitBase (rev8 0x64) (rev8 0x58) = 16#6 ∧
      unitBase (rev8 0x64) (rev8 0x5F) = 44#6 := by decide

/-- S-10: bit 4 of b1 is 1. -/
theorem test_min_delay_b1 :
    decodeSecurity .b1 0x56 0x55 0x81 0x00 =
      some { dev := .ds10a, address := 0x65, state := .closed, lowBattery := true, minDelay := false } := by decide

theorem test_render_address :
    [0x65#8, 0x0A#8, 0xFF#8].map renderAddress = [[0x36, 0x35], [0x30, 0x61], [0x66, 0x66]] := by decide

/-- L2.4. -/
theorem test_record_words :
    [Record.evt (.security (secEvent .b2 0x5 sec65)), .diag .dropChecksum, .diag .ioFatal, .portOpenReq, .portClose,
        .doneConn true, .doneConn false, .doneDisc].map Record.word =
      [0x1F065#20, 0x20001#20, 0x20004#20, 0x30000#20, 0x40000#20, 0x50001#20, 0x50000#20, 0x60001#20] := by decide

/-- The expansions of L2.4. -/
theorem test_script_line :
    assemble ["SECF 5, 0x65, 0x81, 0x00 ; closed".toList, "X10F 0x60, 0x20".toList, "STOP".toList] =
      .ok [0x1056, 0x1055, 0x1081, 0x1000, 0x1060, 0x109F, 0x1020, 0x10DF, 0x7000] := by decide

theorem test_script_errors :
    (assemble ["JUMP".toList]).toOption = none ∧ (assemble ["RX 256".toList]).toOption = none ∧
      (assemble ["ACK 1".toList]).toOption = none := by decide

/-! ### One step of each instruction -/

/-- S-1: under `P_MIN_DELAY_SRC = B2` the class nibble is not in the report. -/
theorem test_exec_sec_rows :
    [execSec0, execSec1, execSec2, execSec3, execSec4, execSec5, execSec6, execSec7, execSec8, execSec9, execSecA,
        execSecB, execSecC, execSecD, execSecE, execSecF].map (fun f => records (f sec65 (full 0 0 0 0))) =
      List.replicate 16 (some [0x1F065#20]) := by decide

/-- S-4, S-5, S-3. -/
theorem test_exec_sec_vectors :
    records (exec (decode (.frame 0xFFFF85FF#32)) (full 0xFF 0xFF 0x85 0xFF)) = some [0x1F0FF#20] ∧
      records (exec (decode (.frame 0x0A0B0100#32)) (full 0x0A 0x0B 0x01 0x00)) = some [0x1B0AB#20] ∧
      records (exec (decode (.frame 0x56550400#32)) (full 0x56 0x55 0x04 0x00)) = some [0x19065#20] := by decide

/-- R-2. -/
theorem test_exec_dropSecMask :
    (next? (exec (.dropSecMask 0x56 0x55 0x10 0x00) (full 0 0 0 0))).map (fun t => (t.trace.map Record.word, t.wstate, t.cnt)) =
      some ([0x20002#20], .wCheck, 0) := by decide

/-- A-8. -/
theorem test_exec_dropChecksum :
    (next? (exec (.dropChecksum 0x12 0x34 0x56 0x78) (full 0 0 0 0))).map (fun t => (t.trace.map Record.word, t.wstate, t.cnt)) =
      some ([0x20001#20], .wCheck, 0) := by decide

/-- X-14. -/
theorem test_exec_dropUnsupportedCmd :
    (next? (exec (.dropUnsupportedCmd 0x60 0x80) (full 0 0 0 0))).map (fun t => (t.trace.map Record.word, t.wstate, t.cnt)) =
      some ([0x20003#20], .wCheck, 0) := by decide

/-- X-11. -/
theorem test_exec_x10Off19 :
    (next? (exec (.x10Off19 0x64) (full 0 0 0 0))).map (fun t => (t.trace.map Record.word, t.wstate, t.cnt)) =
      some ([0x13300#20], .wEmit, 0) := by decide

/-- X-12. -/
theorem test_exec_x10On11 :
    (next? (exec (.x10On11 0x60) (full 0 0 0 0))).map (fun t => (t.trace.map Record.word, t.wstate, t.cnt)) =
      some ([0x11100#20], .wEmit, 0) := by decide

/-- X-9. -/
theorem test_exec_x10Off :
    (next? (exec (.x10Off 0x64 0x78) (full 0 0 0 0))).map (fun t => (t.trace.map Record.word, t.wstate, t.cnt)) =
      some ([0x13400#20], .wEmit, 0) := by decide

/-- X-22. -/
theorem test_exec_x10On :
    (next? (exec (.x10On 0x06 0x00) (full 0 0 0 0))).map (fun t => (t.trace.map Record.word, t.wstate, t.cnt)) =
      some ([0x11270#20], .wEmit, 0) := by decide

/-- A-1 and A-2. -/
theorem test_exec_rx :
    (next? (exec (.rx 0x56) idleWindow)) = some { idleWindow with rxq := [0x56] } ∧
      next? (exec (.rx 0x56) State.reset) = some State.reset := by decide

/-- A-3. -/
theorem test_exec_rx_full_queue :
    let s : State := { emitting with rxq := [0x01, 0x02], cfg := { resetParams with rxDepth := 2 } }
    next? (exec (.rx 0x03) s) = some s := by decide

/-- A-4. -/
theorem test_exec_loopTestRun : next? (exec .loopTestRun looping) = some idleWindow := by decide

/-- A-5. -/
theorem test_exec_loopTestExit :
    next? (exec .loopTestExit stoppingCheck) = some { stoppingCheck with wstate := .wNone } := by decide

/-- A-6. -/
theorem test_exec_byteTake :
    next? (exec .byteTake (reading 2 ⟨some 0x56, some 0x55, none, none⟩ [0x81, 0x00, 0x11])) =
      some (reading 3 ⟨some 0x56, some 0x55, some 0x81, none⟩ [0x00, 0x11]) := by decide

/-- A-7 and A-9. -/
theorem test_exec_frameDone :
    records (exec .frameDone (full 0x56 0x55 0x81 0x00)) = some [0x1F065#20] ∧
      records (exec .frameDone { full 0x60 0x9F 0x00 0xFF with phase := .stopping, running := false, discPending := true }) =
        some [0x11040#20] := by decide

/-- A-10 and A-11. -/
theorem test_exec_exp :
    next? (exec .exp (reading 2 ⟨some 0x56, some 0x55, none, none⟩ [])) = some looping ∧
      next? (exec .exp idleWindow) = some looping := by decide

/-- A-12 and A-17. -/
theorem test_exec_exp_refused :
    refusal? (exec .exp (reading 2 ⟨some 0x56, some 0x55, none, none⟩ [0x9F])) = some (.notEnabled "EXP") ∧
      refusal? (exec .exp (full 0 0 0 0)) = some (.notEnabled "EXP") := by decide

/-- A-13. -/
theorem test_exec_ack : next? (exec .ack emitting) = some looping := by decide

/-- A-14. -/
theorem test_exec_ioerr :
    (next? (exec .ioerr (reading 1 ⟨some 0x11, none, none, none⟩ []))) =
      some { faulted with rxq := [], trace := [.diag .ioFatal] } := by decide

/-- A-15: the phase stays Closed. -/
theorem test_exec_ioerr_orphan :
    next? (exec .ioerr orphan) =
      some { closedState with fatalReported := true, trace := [.diag .ioFatal] } := by decide

/-- C-1 and C-6. -/
theorem test_exec_conn :
    next? (exec .conn State.reset) = some { connecting with trace := [.portOpenReq] } ∧
      next? (exec .conn faulted) = some { faulted with trace := [.doneConn false] } := by decide

/-- C-2. -/
theorem test_exec_conn_busy : refusal? (exec .conn connecting) = some (.notEnabled "CONN") := by decide

/-- C-3. -/
theorem test_exec_openOk :
    next? (exec .openOk connecting) = some { looping with trace := [.doneConn true] } := by decide

/-- C-4. -/
theorem test_exec_openFail :
    next? (exec .openFail connecting) = some { State.reset with trace := [.doneConn false] } := by decide

/-- C-8 and C-9. -/
theorem test_exec_disc :
    next? (exec .disc State.reset) = some { closedState with trace := [.doneDisc] } ∧
      next? (exec .disc idleWindow) =
        some { idleWindow with phase := .stopping, running := false, discPending := true } := by decide

/-- C-10 and C-12. -/
theorem test_exec_disc_after :
    next? (exec .disc faulted) = some exited ∧
      next? (exec .disc closedState) = some { closedState with trace := [.doneDisc] } := by decide

/-- C-11. -/
theorem test_exec_joinDone :
    next? (exec .joinDone exited) =
      some { closedState with fatalReported := true, trace := [.portClose, .doneDisc] } := by decide

/-- C-13: the orphan keeps its window. -/
theorem test_exec_joinTo :
    next? (exec .joinTo stoppingRead) =
      some { stoppingRead with
        phase := .closed, portOpen := false, discPending := false, trace := [.portClose, .doneDisc] } := by decide

/-- C-14. -/
theorem test_exec_joinTo_refused :
    refusal? (exec .joinTo exited) = some (.notEnabled "JOIN_TO") := by decide

/-- T-1 and T-2. -/
theorem test_exec_rst :
    next? (exec .rst { closedState with fatalReported := true }) = some State.reset ∧
      next? (exec .rst { emitting with rxq := [0xF0] }) = some State.reset := by decide

theorem test_exec_reservedStim :
    refusal? (exec (.reservedStim 0x2001) State.reset) = some (.reservedStimulus 0x2001) := by decide

theorem test_phase_codes_refused :
    Phase.ofCode 5 = .error (.unusedPhase 5) ∧ Phase.ofCode 7 = .error (.unusedPhase 7) := by decide

/-- R190, R234. -/
theorem test_port_settings :
    (State.reset.configurePath ['p']).portSettings =
      { path := ['p'], baud := 4800, dataBits := 8, parity := .none, stopBits := 1, flow := .none, readTimeoutMs := 1000 } := by decide

theorem test_placed_stimulus :
    next? (step (State.reset.withFetchWord 16 0x4000)) = some { connecting with trace := [.portOpenReq] } := by decide

/-- X-2, as the first instruction after reset. -/
theorem test_placed_frame :
    records (step (State.reset.withFetchWord 32 0x609F20DF)) = some [0x13040#20] := by decide

/-- R224: a disconnect before the loop test. -/
theorem test_schedule_stimulus_first :
    next? (step { looping with script := [0x7000], sched := [.stimulus] }) = some stoppingCheck := by decide

/-! ### Witnesses: the hypotheses of each obligation are met -/

theorem inv_looping : Inv (looping) := by constructor <;> decide

theorem inv_full : Inv (full 0x60 0x9F 0x00 0xFF) := by constructor <;> decide

theorem inv_exited : Inv (exited) := by constructor <;> decide

theorem inv_stoppingCheck : Inv (stoppingCheck) := by constructor <;> decide

theorem inv_stoppingRead : Inv (stoppingRead) := by constructor <;> decide

theorem inv_orphan : Inv (orphan) := by constructor <;> decide

theorem inv_idleWindow : Inv (idleWindow) := by constructor <;> decide

theorem inv_emitting : Inv (emitting) := by constructor <;> decide

theorem witness_CandidateNeverChecksumValid : cand 0x56 0x55 = true := by decide

theorem witness_X10EventsAreOnOrOffWithUnit : route .b2 0x60 0x9F 0x00 0xFF = .ok a1On := by decide

theorem witness_RouterTriesSecurityFirst :
    (∃ e, route .b2 0x56 0x55 0x81 0x00 = .ok (.security e)) ∧ ∃ e, route .b2 0x60 0x9F 0x00 0xFF = .ok (.x10 e) := ⟨⟨_, rfl⟩, _, rfl⟩

theorem witness_DropCodeNamesTheCause :
    route .b2 0x60 0x60 0x9F 0x00 = .error .dropSecMask ∧ route .b2 0x60 0x9E 0x00 0xFF = .error .dropChecksum ∧
      route .b2 0x60 0x9F 0x80 0x7F = .error .dropUnsupportedCmd := by decide

theorem witness_DecodeEncodeRoundTrip :
    (Instr.sec0 sec65).wellFormed = true ∧ (Instr.dropSecMask 0x56 0x55 0x02 0x00).wellFormed = true ∧
      (Instr.dropChecksum 0x12 0x34 0x56 0x78).wellFormed = true ∧ (Instr.x10Off 0x60 0x7F).wellFormed = true ∧
      (Instr.x10On 0x60 0x5F).wellFormed = true ∧ (Instr.dropUnsupportedCmd 0x60 0x80).wellFormed = true ∧
      (Instr.rx 0xFF).wellFormed = true ∧ (Instr.reservedStim 0x1100).wellFormed = true := by decide

theorem witness_ReservedStimulusRefused :
    decode (.stim 0xEFFF#16) = .reservedStim 0xEFFF ∧ decode (.stim 0x1F00#16) = .reservedStim 0x1F00 := by decide

theorem witness_EventWordsAreDistinct :
    a1On.word = (Event.x10 { house := 0, unit := some 1#6, cmd := .on }).word := by decide

theorem witness_PseudoInstructionFrames : secMaskOk 0x00 = true ∧ secMaskOk 0x85 = true := by decide

theorem witness_LoopTestRunOpensWindow :
    (looping.wstate = .wCheck ∧ looping.running = true) ∧ ¬ (stoppingCheck.wstate = .wCheck ∧ stoppingCheck.running = true) := by decide

theorem witness_LoopTestExitEndsWorker :
    (stoppingCheck.wstate = .wCheck ∧ stoppingCheck.running = false) ∧ ¬ (looping.wstate = .wCheck ∧ looping.running = false) := by decide

theorem witness_ByteTakeMovesQueueHead :
    (let s := reading 0 FrameBuffer.empty [0x56];
      s.wstate = .wRead ∧ s.cnt.val < 4 ∧ s.rxq = 0x56#8 :: []) ∧
      (let s := reading 3 ⟨some 0x56, some 0x55, some 0x81, none⟩ [0x00, 0x11];
      s.wstate = .wRead ∧ s.cnt.val < 4 ∧ s.rxq = 0x00#8 :: [0x11]) ∧
      looping.wstate ≠ .wRead ∧ (full 0 0 0 0).cnt.val = 4 ∧ idleWindow.rxq = [] := by decide

theorem witness_FrameDoneRoutesFrame :
    (full 0x60 0x9F 0x00 0xFF).fb = ⟨some 0x60, some 0x9F, some 0x00, some 0xFF⟩ ∧
      (full 0x60 0x9F 0x00 0xFF).wstate = .wRead ∧ (full 0x60 0x9F 0x00 0xFF).cnt = 4 ∧
      route .b2 0x60 0x9F 0x00 0xFF = .ok a1On ∧ route .b2 0x12 0x34 0x56 0x78 = .error .dropChecksum := by decide

theorem witness_FrameDoneStops :
    (let s := reading 4 FrameBuffer.empty [];
      s.wstate = .wRead ∧ s.cnt = 4 ∧ s.fb.c0 = none) ∧ looping.wstate ≠ .wRead ∧ idleWindow.cnt ≠ 4 := by decide

theorem witness_WindowExpiryDiscardsPartialFrame :
    (let s := idleWindow;
      s.wstate = .wRead ∧ s.cnt.val < 4 ∧ s.rxq = []) ∧
      (let s := reading 3 ⟨some 0x56, some 0x55, some 0x81, none⟩ [];
      s.wstate = .wRead ∧ s.cnt.val < 4 ∧ s.rxq = []) ∧
      (let s := full 0 0 0 0;
      ¬ (s.wstate = .wRead ∧ s.cnt.val < 4 ∧ s.rxq = [])) := by decide

theorem witness_SinkAckFreesWorker : emitting.wstate = .wEmit ∧ looping.wstate ≠ .wEmit := by decide

theorem witness_IoErrorFatalPath :
    (idleWindow.wstate = .wRead ∧ idleWindow.cnt.val < 4) ∧
      (let s := reading 3 ⟨some 0x56, some 0x55, some 0x81, none⟩ [];
      s.wstate = .wRead ∧ s.cnt.val < 4) ∧
      ¬ ((full 0 0 0 0).wstate = .wRead ∧ (full 0 0 0 0).cnt.val < 4) := by decide

theorem witness_ConnectAcceptedOnlyInIdle :
    State.reset.phase = .idle ∧ looping.phase = .running ∧ (faulted.phase = .stopping ∧ faulted.discPending = false) ∧
      closedState.phase = .closed ∧ connecting.phase = .connecting ∧
      (exited.phase = .stopping ∧ exited.discPending = true) := by decide

theorem witness_PortAnswersConnect :
    connecting.phase = .connecting ∧ State.reset.phase ≠ .connecting := by decide

theorem witness_DisconnectByPhase :
    State.reset.phase = .idle ∧ looping.phase = .running ∧ (faulted.phase = .stopping ∧ faulted.discPending = false) ∧
      closedState.phase = .closed ∧ connecting.phase = .connecting ∧
      (exited.phase = .stopping ∧ exited.discPending = true) := by decide

theorem witness_DisconnectClosesPort :
    (exited.phase = .stopping ∧ exited.discPending = true ∧ exited.wstate = .wNone) ∧
      (stoppingRead.phase = .stopping ∧ stoppingRead.discPending = true ∧ stoppingRead.wstate ≠ .wNone) ∧
      ¬ (stoppingRead.phase = .stopping ∧ stoppingRead.discPending = true ∧ stoppingRead.wstate = .wNone) ∧
      ¬ (faulted.phase = .stopping ∧ faulted.discPending = true ∧ faulted.wstate = .wNone) ∧
      ¬ (exited.phase = .stopping ∧ exited.discPending = true ∧ exited.wstate ≠ .wNone) := by decide

/-- R198 guard. -/
theorem test_exec_joinDone_refused :
    refusal? (exec .joinDone stoppingRead) = some (.notEnabled "JOIN_DONE") ∧
      refusal? (exec .joinDone faulted) = some (.notEnabled "JOIN_DONE") := by decide

theorem witness_StatusOutputValues : (4 : BitVec 3).toNat < 5 ∧ 5 ≤ (5 : BitVec 3).toNat := by decide

theorem witness_SecurityRowsEmitReport :
    secParts (.sec0 sec65) = some (0x0, sec65) ∧ secParts (.secF sec65) = some (0xF, sec65) ∧
      (full 0 0 0 0).wstate = .wRead ∧ (full 0 0 0 0).cnt = 4 := by decide

theorem witness_X10RowsEmitCommand :
    (full 0x60 0x9F 0x00 0xFF).wstate = .wRead ∧ (full 0x60 0x9F 0x00 0xFF).cnt = 4 := by decide

theorem witness_DropRowsEmitDiagnostic :
    (full 0x12 0x34 0x56 0x78).wstate = .wRead ∧ (full 0x12 0x34 0x56 0x78).cnt = 4 := by decide

theorem witness_FrameDoneRunsFrameClass :
    (full 0x56 0x55 0x81 0x00).fb = ⟨some 0x56, some 0x55, some 0x81, some 0x00⟩ ∧
      (full 0x56 0x55 0x81 0x00).wstate = .wRead ∧ (full 0x56 0x55 0x81 0x00).cnt = 4 := by decide

theorem witness_GuardDecidesCompletion :
    Inv looping ∧ enabled .loopTestRun looping = true ∧ enabled .ack looping = false := ⟨inv_looping, by decide⟩

theorem witness_StepRunsDecodedInstruction :
    (looping.fetch = some (.internal .loopTestRun, looping)) ∧
      (let s : State := { State.reset with script := [0x4000] };
      s.nextInternal = none ∧ s.script = 0x4000#16 :: []) ∧
      (let s : State := { looping with script := [0x7000], sched := [.stimulus] };
      s.script = 0x7000#16 :: [] ∧ s.nextInternal ≠ none ∧ s.sched = .stimulus :: []) ∧
      (let s : State := { full 0 0 0 0 with script := [0x7000], sched := [.internal] };
      s.wstate = .wRead ∧ s.cnt = 4 ∧ s.fb = ⟨some 0, some 0, some 0, some 0⟩ ∧ s.script ≠ [] ∧
        s.sched = .internal :: []) ∧
      (let s : State := { looping with script := [0x7000], sched := [.internal] };
      s.nextInternal = some .loopTestRun ∧ s.script ≠ [] ∧ s.sched = .internal :: []) := by decide

theorem witness_StepWaitsWithoutInput : State.reset.script = [] ∧ State.reset.nextInternal = none := by decide

theorem witness_OneInternalStepAtMost :
    enabled (decode (.internal .loopTestRun)) looping = true ∧
      enabled (decode (.internal .loopTestExit)) stoppingCheck = true ∧
      enabled (decode (.internal .byteTake)) (reading 3 ⟨some 1, some 2, some 3, none⟩ [4]) = true ∧
      enabled (decode (.internal .frameDone)) (full 1 2 3 4) = true ∧
      enabled (decode (.internal .joinDone)) exited = true ∧
      (let s : State := { looping with script := [0x7000], sched := [.internal] };
      s.script ≠ [] ∧ s.sched = .internal :: [] ∧ enabled (decode (.internal .loopTestRun)) s = true) ∧
      (let s : State := { looping with script := [0x7000], sched := [.stimulus] };
      s.script = 0x7000#16 :: [] ∧ s.sched = .stimulus :: [] ∧
        enabled (decode (.internal .loopTestRun)) s = true) := by decide

theorem witness_StepKeepsInvariant : Inv looping ∧ step looping = .next idleWindow := ⟨inv_looping, rfl⟩

theorem witness_RunningWriters :
    ∃ t, exec .openOk connecting = .next t ∧ t.running ≠ connecting.running := ⟨_, rfl, by decide⟩

theorem witness_FatalReportedSticky :
    (∃ t, exec .disc faulted = .next t ∧ faulted.fatalReported = true ∧ Instr.disc ≠ .rst) ∧
      ∃ t, exec .ioerr idleWindow = .next t ∧ idleWindow.fatalReported = false ∧ t.fatalReported = true := ⟨⟨_, rfl, by decide⟩, _, rfl, by decide⟩

theorem witness_PhaseMovesAreListed :
    (∃ t, exec .joinTo stoppingRead = .next t ∧ t.phase ≠ stoppingRead.phase) ∧
      ∃ t, exec .rst closedState = .next t ∧ t.phase ≠ closedState.phase := ⟨⟨_, rfl, by decide⟩, _, rfl, by decide⟩

theorem witness_OnlyOpenOkStartsWorker :
    ∃ t, exec .openOk connecting = .next t ∧ connecting.wstate = .wNone ∧ t.wstate ≠ .wNone := ⟨_, rfl, by decide⟩

theorem witness_FrameRowsKeepLifecycle :
    (∃ t, isFrameRow (.x10On 0x60 0x00) = true ∧ exec (.x10On 0x60 0x00) (full 0x60 0x9F 0x00 0xFF) = .next t) ∧
      ∃ t, isFrameRow .frameDone = true ∧ exec .frameDone (full 0x12 0x34 0x56 0x78) = .next t := ⟨⟨_, rfl, rfl⟩, _, rfl, rfl⟩

theorem witness_OneRecordPerFrame :
    (∃ t, isFrameRow (.x10On 0x60 0x00) = true ∧ exec (.x10On 0x60 0x00) (full 0x60 0x9F 0x00 0xFF) = .next t) ∧
      ∃ t, isFrameRow .frameDone = true ∧ exec .frameDone (full 0x12 0x34 0x56 0x78) = .next t := ⟨⟨_, rfl, rfl⟩, _, rfl, rfl⟩

theorem witness_CommandUnitLeavesWorker :
    (∃ t, isLifecycleStep .joinTo = true ∧ exec .joinTo stoppingRead = .next t ∧ Instr.joinTo ≠ .openOk) ∧
      ∃ t, isLifecycleStep .disc = true ∧ exec .disc looping = .next t ∧
        Instr.disc ≠ .openOk ∧ Instr.disc ≠ .joinDone ∧ Instr.disc ≠ .joinTo := ⟨⟨_, rfl, rfl, by decide⟩, _, rfl, rfl, by decide⟩

theorem witness_ByteAccounting : Inv stoppingRead ∧ ∃ t, exec .joinTo stoppingRead = .next t := ⟨inv_stoppingRead, _, rfl⟩

theorem witness_OutputOnlyGrows : ∃ t, step (full 0x12 0x34 0x56 0x78) = .next t := ⟨_, rfl⟩

theorem witness_OrphanNeverReadsAgain :
    Inv orphan ∧ orphan.phase = .closed ∧ Instr.exp ≠ .rst ∧ ∃ t, exec .exp orphan = .next t := ⟨inv_orphan, rfl, by decide, _, rfl⟩

theorem witness_DisconnectCompletes :
    (Inv exited ∧ exited.phase = .stopping ∧ exited.discPending = true ∧ exited.wstate = .wNone ∧ exited.script = []) ∧
      (Inv stoppingCheck ∧ stoppingCheck.phase = .stopping ∧ stoppingCheck.discPending = true ∧
        stoppingCheck.wstate = .wCheck ∧ stoppingCheck.script = []) ∧
      (Inv stoppingRead ∧ stoppingRead.phase = .stopping ∧ stoppingRead.discPending = true ∧
        stoppingRead.wstate ≠ .wNone) := ⟨⟨inv_exited, by decide⟩, ⟨inv_stoppingCheck, by decide⟩, inv_stoppingRead, by decide⟩

theorem witness_TimedStepRefinesStep :
    ∃ u, TimedState.act { base := { idleWindow with script := [0x2000] }, now := 1000, tOpen := 0, tDisc := 0 } = .next u ∧
      (State.fetch { idleWindow with script := [0x2000] }).map Prod.fst = some (encode .exp) := ⟨_, rfl, by decide⟩

/-- A state of the timed wrapper whose timers started at 0. -/
def timed (s : State) (now : Nat) : TimedState := { base := s, now := now, tOpen := 0, tDisc := 0 }

theorem witness_TimedStepRefinesStep_timers :
    (∃ u, (timed looping 7).act = .next u ∧ u.tOpen = 7 ∧ u.tDisc = 0) ∧
      (∃ u, (timed { idleWindow with script := [0x7000] } 7).act = .next u ∧ u.tOpen = 0 ∧ u.tDisc = 7) ∧
      ∃ u, (timed { closedState with script := [0x7000] } 7).act = .next u ∧ u.tDisc = 0 :=
  ⟨⟨_, rfl, by decide⟩, ⟨_, rfl, by decide⟩, _, rfl, by decide⟩

theorem witness_TimedStepRefinesStep_joinTo :
    let t := timed { stoppingRead with script := [0x8000] } Config.tJoinMs;
    (∃ u, t.act = .next u) ∧ ∃ s, t.base.fetch = some (encode .joinTo, s) := by
  refine ⟨⟨_, TimedState.act_next.mpr (.inr ⟨_, _, _, rfl, fun h => absurd h (by decide), fun _ => ?_, rfl, rfl⟩)⟩,
    _, rfl⟩
  exact TimedState.joinOver_iff.mpr (Nat.le_of_eq (Nat.zero_add _))

theorem witness_TimedStepRefinesStep_early :
    (timed { idleWindow with script := [0x2000] } 999).act = .refused (.notDue "EXP") ∧
      (timed { stoppingRead with script := [0x8000] } 0).now < 0 + Config.tJoinMs :=
  ⟨rfl, Nat.lt_of_lt_of_eq Config.tJoinMs_pos (Nat.zero_add _).symm⟩

/-- R257: time does not pass the end of a wait whose worker has exited, where JOIN_DONE completes the disconnect. -/
theorem witness_TimedStepRefinesStep_tick :
    (timed exited Config.tJoinMs).tick = .refused .deadlinePassed ∧
      (timed idleWindow 1000).tick = .refused .deadlinePassed ∧
      (timed exited 0).tick = .next (timed exited 1) := by
  have h : (timed exited Config.tJoinMs).joinDue = true :=
    TimedState.joinDue_iff.mpr ⟨rfl, rfl, Nat.le_of_eq (Nat.zero_add _)⟩
  refine ⟨?_, rfl, TimedState.tick_next.mpr ⟨rfl, ?_, rfl⟩⟩
  · rw [TimedState.tick, h, Bool.or_true, if_pos rfl]
  · rw [← Bool.not_eq_true, TimedState.joinDue_iff]
    exact fun h => absurd h.2.2 (Nat.not_le.mpr (Nat.lt_of_lt_of_eq Config.tJoinMs_pos (Nat.zero_add _).symm))

theorem witness_TimedStepRefinesStep_invariant :
    TimedInv (timed looping 7) ∧ ∃ u, (timed looping 7).act = .next u :=
  ⟨⟨inv_looping, by decide, by decide⟩, _, rfl⟩

end Sys2Proof.Tests
end

section
/-! Every instruction keeps the parameters and extends the trace (00_scope.md R8, 30_encoding.md R81), and so does a step. -/

namespace Sys2Proof.Machine

/-- A fetched step is an `exec` on the state with some inputs used up; without a fetch the state stays (log 5). -/
theorem step_cases {s t : State} (h : step s = .next t) :
    (s.fetch = none ∧ t = s) ∨
      ∃ c ws ts, s.fetch = some (c, { s with script := ws, sched := ts }) ∧
        exec (decode c) { s with script := ws, sched := ts } = .next t := by
  unfold step at h
  split at h
  · rename_i hf
    exact .inl ⟨hf, (Host.Outcome.next.inj h).symm⟩
  · rename_i c u hf
    obtain ⟨ws, ts, rfl⟩ := State.fetch_inputs hf
    exact .inr ⟨c, ws, ts, hf, h⟩

/-- Every next state is built from named updates, none of which writes a parameter (R8). -/
theorem exec_cfg {i : Instr} {s t : State} (h : exec i s = .next t) : t.cfg = s.cfg := by
  cases exec_cases h
  all_goals
    rename_i ht
    simp [ht]

theorem State.trace_grows_finishFrame (s : State) (r : Except DiagCode Event) :
    s.trace <+: (s.finishFrame r).trace := by
  obtain ⟨e, -, -, -, ht⟩ | ⟨c, -, -, -, ht⟩ := s.finishFrame_cases r
  · exact ⟨[.evt e], ht.symm⟩
  · exact ⟨[.diag c], ht.symm⟩

theorem State.trace_grows_takeFatal (s : State) : s.trace <+: s.takeFatal.trace := by
  rw [State.takeFatal_trace]
  split
  · exact ⟨[], List.append_nil _⟩
  · exact ⟨[.diag .ioFatal], rfl⟩

theorem State.trace_grows_closePort (s : State) : s.trace <+: s.closePort.trace :=
  ⟨[.portClose, .doneDisc], by simp⟩

/-- Records are only appended: by a frame, the fatal path, the close action and the answers to commands. Every other
instruction leaves the trace as it is. -/
theorem exec_trace_grows {i : Instr} {s t : State} (h : exec i s = .next t) : s.trace <+: t.trace := by
  cases exec_cases h
  case frame r _ _ _ ht => exact ht ▸ s.trace_grows_finishFrame r
  case ioerr ht => exact ht ▸ s.trace_grows_takeFatal
  case joinTo ht | joinDone ht => exact ht ▸ s.trace_grows_closePort
  all_goals
    rename_i ht
    simp [ht]

/-- Settles O56: an idle step changes nothing, and any other step is an instruction on a state that differs from the old
one in its inputs alone. -/
theorem outputOnlyGrows : Obligations.OutputOnlyGrows := by
  intro s t h
  obtain ⟨-, rfl⟩ | ⟨c, ws, ts, -, hx⟩ := step_cases h
  · exact ⟨rfl, [], (List.append_nil _).symm⟩
  · have hcfg := exec_cfg hx
    obtain ⟨os, hos⟩ := exec_trace_grows hx
    exact ⟨hcfg, os, hos.symm⟩

end Sys2Proof.Machine
end

section
/-! What keeps the invariant of 10_state.md R34: one lemma per kind of move, then every instruction, then a step. -/

namespace Sys2Proof.Machine

/-- There is no worker before the port has been opened. -/
theorem Inv.not_fresh_of_worker {s : State} (h : Inv s) (hw : s.wstate ≠ .wNone) :
    ¬ (s.phase = .idle ∨ s.phase = .connecting) := by
  intro hp
  obtain ⟨-, -, hnone, -⟩ := h.fresh hp
  exact hw hnone

/-- Bytes wait only at an open port: a queue that is not empty rules out the phases without one. -/
theorem Inv.not_closed_of_rxq {s : State} (h : Inv s) (hq : s.rxq ≠ []) : s.phase ≠ .closed := by
  intro hp
  obtain ⟨-, -, -, hempty⟩ := h.closed hp
  exact hq hempty

/-- The reset values meet the invariant with every depth that R7 allows. -/
theorem inv_toReset {s : State} (hd : 1 ≤ s.cfg.rxDepth) : Inv s.toReset := by
  constructor
  case depth => exact hd
  all_goals simp

/-- A living worker may change its position, the sink's event and the window, as long as these agree with each other and
the worker stays alive in phase Running. -/
theorem Inv.moveWorker {s : State} (h : Inv s) (hw : s.wstate ≠ .wNone) {w : WState} {e : Option Event} {c : Fin 5}
    {f : FrameBuffer} (tr : List Record) (halive : s.phase = .running → w ≠ .wNone) (hevent : e.isSome = true ↔ w = .wEmit)
    (hfull : c = 4 → w = .wRead) (hnoWindow : w ≠ .wRead → c = 0) (hcells : f.filledTo c = true) :
    Inv { s with wstate := w, evt := e, cnt := c, fb := f, trace := tr } :=
  { h with
    running := fun hp =>
      have ⟨hrun, hopen, hpend, _⟩ := h.running hp
      ⟨hrun, hopen, hpend, halive hp⟩
    fresh := fun hp => absurd hp (h.not_fresh_of_worker hw)
    event := hevent
    full := hfull
    noWindow := hnoWindow
    cells := hcells }

/-- Away from the sink no event is held. -/
theorem Inv.evt_eq_none {s : State} (h : Inv s) (hw : s.wstate ≠ .wEmit) : s.evt = none := by
  rw [← Option.not_isSome_iff_eq_none, h.event]
  exact hw

theorem Inv.finishFrame {s : State} (h : Inv s) (hg : s.canFrameDone = true) (r : Except DiagCode Event) :
    Inv (s.finishFrame r) := by
  obtain ⟨hread, -⟩ := State.canFrameDone_iff.mp hg
  have hnone : s.evt = none := h.evt_eq_none (by simp [hread])
  cases r with
  | ok e => exact h.moveWorker (by simp [hread]) _ (by simp) (by simp) (by simp) (by simp) rfl
  | error c => exact h.moveWorker (by simp [hread]) _ (by simp) (by simp [hnone]) (by simp) (by simp) rfl

theorem Inv.exp {s : State} (h : Inv s) (hg : s.canExp = true) : Inv { s.clearWindow with wstate := .wCheck } := by
  obtain ⟨hread, -, -⟩ := State.canExp_iff.mp hg
  have hnone : s.evt = none := h.evt_eq_none (by simp [hread])
  exact h.moveWorker (by simp [hread]) _ (by simp) (by simp [hnone]) (by simp) (by simp) rfl

theorem Inv.ack {s : State} (h : Inv s) (hg : s.canAck = true) : Inv { s with evt := none, wstate := .wCheck } := by
  have hemit := State.canAck_iff.mp hg
  have hcnt : s.cnt = 0 := h.noWindow (by simp [hemit])
  exact h.moveWorker (by simp [hemit]) _ (by simp) (by simp) (by simp [hcnt]) (fun _ => hcnt) h.cells

theorem Inv.loopTestRun {s : State} (h : Inv s) (hg : s.canLoopRun = true) :
    Inv { s.clearWindow with wstate := .wRead } := by
  obtain ⟨hcheck, -⟩ := State.canLoopRun_iff.mp hg
  have hnone : s.evt = none := h.evt_eq_none (by simp [hcheck])
  exact h.moveWorker (by simp [hcheck]) _ (by simp) (by simp [hnone]) (by simp) (by simp) rfl

/-- The worker exits only once `running` is cleared, which phase Running rules out (R34). -/
theorem Inv.loopTestExit {s : State} (h : Inv s) (hg : s.canLoopExit = true) : Inv { s with wstate := .wNone } := by
  obtain ⟨hcheck, hstopped⟩ := State.canLoopExit_iff.mp hg
  have hnone : s.evt = none := h.evt_eq_none (by simp [hcheck])
  have hcnt : s.cnt = 0 := h.noWindow (by simp [hcheck])
  have hphase : s.phase ≠ .running := fun hp => by simp [(h.running hp).1] at hstopped
  exact h.moveWorker (by simp [hcheck]) _ (fun hp => absurd hp hphase) (by simp [hnone]) (by simp [hcnt])
    (fun _ => hcnt) h.cells

/-- BYTE_TAKE shortens the queue and fills the next cell of the open window (R163). -/
theorem Inv.takeByte {s : State} (h : Inv s) (hg : s.canByteTake = true) : Inv s.takeByte := by
  obtain ⟨hread, hlt, hq⟩ := State.canByteTake_iff.mp hg
  obtain ⟨b, rest, hrxq⟩ := List.exists_cons_of_ne_nil hq
  have hbound := h.queueBound
  rw [hrxq, List.length_cons] at hbound
  rw [State.takeByte_cons hrxq]
  exact { h with
    fresh := fun hp => absurd hp (h.not_fresh_of_worker (by simp [hread]))
    closed := fun hp => absurd hp (h.not_closed_of_rxq hq)
    full := fun _ => hread
    noWindow := fun hw => absurd hread hw
    queueBound := Nat.le_of_succ_le hbound
    cells := FrameBuffer.filledTo_put hlt h.cells }

/-- A byte is queued at an open port only, and only where there is room (R160). -/
theorem Inv.receive {s : State} (h : Inv s) (b : Byte) : Inv (s.receive b) := by
  obtain ⟨hopen, hroom, ht⟩ | ⟨-, ht⟩ := s.receive_cases b
  · rw [ht]
    exact { h with
      fresh := fun hp => by
        obtain ⟨-, hshut, -⟩ := h.fresh hp
        simp [hshut] at hopen
      closed := fun hp => by
        obtain ⟨-, hshut, -⟩ := h.closed hp
        simp [hshut] at hopen
      queueBound := by simpa using hroom }
  · rwa [ht]

/-- Phase Running ends in Stopping, with or without a disconnect that waits for the worker (R195, R167). -/
theorem Inv.stopRunning {s : State} (h : Inv s) (hp : s.phase = .running) (pending fatal : Bool) :
    Inv { s with running := false, discPending := pending, phase := .stopping, fatalReported := fatal } := by
  obtain ⟨-, hopen, -, -⟩ := h.running hp
  exact { h with
    running := nofun
    fresh := nofun
    closed := nofun
    stopping := fun _ => ⟨rfl, hopen⟩
    pending := fun _ => rfl
    runningPhase := nofun
    fatal := fun _ => .inl rfl }

/-- What the fatal path does to the lifecycle: a running block goes to Stopping, and one that is already stopping or closed
stays (R167). -/
theorem Inv.reportFatal {s : State} (h : Inv s) (hw : s.wstate ≠ .wNone) :
    Inv { s with running := false, phase := if s.phase = .running then .stopping else s.phase, fatalReported := true } := by
  by_cases hp : s.phase = .running
  · rw [if_pos hp]
    exact h.stopRunning hp s.discPending true
  · rw [if_neg hp]
    have hfresh := h.not_fresh_of_worker hw
    have hphase : s.phase = .stopping ∨ s.phase = .closed := by
      cases hs : s.phase <;> simp_all
    exact { h with
      running := fun hp' => absurd hp' hp
      fresh := fun hp' => absurd hp' hfresh
      closed := fun hp' => ⟨rfl, (h.closed hp').2⟩
      stopping := fun hp' => ⟨rfl, (h.stopping hp').2⟩
      runningPhase := nofun
      fatal := fun _ => hphase }

/-- The fatal path as one update: only the record depends on whether the error was reported before (R167). -/
theorem State.takeFatal_eq (s : State) :
    s.takeFatal =
      { s with
        running := false, wstate := .wNone, phase := if s.phase = .running then .stopping else s.phase
        fatalReported := true, cnt := 0, fb := FrameBuffer.empty
        trace := if s.fatalReported then s.trace else s.trace ++ [.diag .ioFatal] } := by
  cases hf : s.fatalReported <;> simp [State.takeFatal, State.clearWindow, State.emit, hf]

/-- The fatal path ends the lifecycle's run first, so its worker may then go (R167, R226). -/
theorem Inv.takeFatal {s : State} (h : Inv s) (hg : s.canIoerr = true) : Inv s.takeFatal := by
  obtain ⟨hread, -⟩ := State.canIoerr_iff.mp hg
  have hnone : s.evt = none := h.evt_eq_none (by simp [hread])
  have hlive : s.wstate ≠ .wNone := by simp [hread]
  have hphase : (if s.phase = .running then Phase.stopping else s.phase) ≠ .running := by
    split
    · simp
    · assumption
  rw [State.takeFatal_eq]
  exact (h.reportFatal hlive).moveWorker hlive _ (fun hp => absurd hp hphase) (by simp [hnone]) (by simp) (by simp) rfl

/-- Without a port, a worker or a pending command, the block may be in any of the three phases that have none of them. -/
theorem Inv.moveFresh {s : State} (h : Inv s) (hp : s.phase = .idle ∨ s.phase = .connecting) {p : Phase}
    (tr : List Record) (hne : p ≠ .running) (hns : p ≠ .stopping) : Inv { s with phase := p, trace := tr } := by
  obtain ⟨hrun, hopen, hw, hq⟩ := h.fresh hp
  have hstop : s.phase ≠ .stopping := by rcases hp with hp | hp <;> simp [hp]
  have hclosed : s.phase ≠ .closed := by rcases hp with hp | hp <;> simp [hp]
  have hpend : s.discPending ≠ true := fun hd => hstop (h.pending hd)
  exact { h with
    running := fun hp' => absurd hp' hne
    fresh := fun _ => ⟨hrun, hopen, hw, hq⟩
    closed := fun _ => ⟨hrun, hopen, Bool.eq_false_of_not_eq_true hpend, hq⟩
    stopping := fun hp' => absurd hp' hns
    pending := fun hd => absurd hd hpend
    runningPhase := fun hr => by simp [hrun] at hr
    fatal := fun hf => ((h.fatal hf).elim hstop hclosed).elim }

/-- The port's answer starts a worker at the top of its loop with an empty queue (R192). -/
theorem Inv.openOk {s : State} (h : Inv s) (hp : s.phase = .connecting) :
    Inv ({ s with portOpen := true, rxq := [], running := true, wstate := .wCheck,
                  phase := .running }.emit (.doneConn true)) := by
  obtain ⟨-, -, hw, -⟩ := h.fresh (.inr hp)
  have hnone : s.evt = none := h.evt_eq_none (by simp [hw])
  have hcnt : s.cnt = 0 := h.noWindow (by simp [hw])
  have hpend : s.discPending ≠ true := fun hd => by simp [h.pending hd] at hp
  exact { h with
    running := fun _ => ⟨rfl, rfl, Bool.eq_false_of_not_eq_true hpend, nofun⟩
    fresh := nofun
    closed := nofun
    stopping := nofun
    pending := fun hd => absurd hd hpend
    event := by simp [hnone]
    full := by simp [hcnt]
    noWindow := fun _ => hcnt
    runningPhase := fun _ => rfl
    queueBound := Nat.zero_le _
    fatal := fun hf => by simpa [hp] using h.fatal hf }

theorem Inv.discAfterFault {s : State} (h : Inv s) (hp : s.phase = .stopping) :
    Inv { s with discPending := true } :=
  { h with
    running := fun hp' => by simp [hp] at hp'
    closed := fun hp' => by simp [hp] at hp'
    pending := fun _ => hp }

/-- The close action leaves the worker alone and empties the queue (R198). -/
theorem Inv.closePort {s : State} (h : Inv s) (hp : s.phase = .stopping) : Inv s.closePort := by
  obtain ⟨hrun, -⟩ := h.stopping hp
  exact { h with
    running := nofun
    fresh := nofun
    closed := fun _ => ⟨hrun, rfl, rfl, rfl⟩
    stopping := nofun
    pending := nofun
    runningPhase := fun hr => by simp [hrun] at hr
    queueBound := Nat.zero_le _
    fatal := fun _ => .inr rfl }

/-- A record more changes nothing that the invariant speaks of. -/
theorem Inv.emit {s : State} (h : Inv s) (o : Record) : Inv (s.emit o) :=
  h.congr_inputs (s.trace ++ [o]) s.script s.sched

/-- Every instruction that completes keeps the invariant. -/
theorem exec_keeps_inv {i : Instr} {s t : State} (h : Inv s) (hx : exec i s = .next t) : Inv t := by
  cases exec_cases hx with
  | frame r hi hr hg ht => exact ht ▸ h.finishFrame hg r
  | rx b hi ht => exact ht ▸ h.receive b
  | exp hi hg ht => exact ht ▸ h.exp hg
  | ioerr hi hg ht => exact ht ▸ h.takeFatal hg
  | connAccept hi hp ht => exact ht ▸ h.moveFresh (.inl hp) _ (by simp) (by simp)
  | connRefuse hi hg hp ht => exact ht ▸ h.emit _
  | openOk hi hp ht => exact ht ▸ h.openOk hp
  | openFail hi hp ht => exact ht ▸ h.moveFresh (.inr hp) _ (by simp) (by simp)
  | discIdle hi hp ht => exact ht ▸ h.moveFresh (.inl hp) _ (by simp) (by simp)
  | discRunning hi hp ht => exact ht ▸ h.stopRunning hp true s.fatalReported
  | discAfterFault hi hp hd ht => exact ht ▸ h.discAfterFault hp
  | discClosed hi hp ht => exact ht ▸ h.emit _
  | joinTo hi hg ht => exact ht ▸ h.closePort (State.canJoinTo_iff.mp hg).1
  | ack hi hg ht => exact ht ▸ h.ack hg
  | rst hi ht => exact ht ▸ inv_toReset h.depth
  | loopTestRun hi hg ht => exact ht ▸ h.loopTestRun hg
  | loopTestExit hi hg ht => exact ht ▸ h.loopTestExit hg
  | byteTake hi hg ht => exact ht ▸ h.takeByte hg
  | joinDone hi hg ht => exact ht ▸ h.closePort (State.canJoinDone_iff.mp hg).1

/-- Settles O47: a step waits, or runs an instruction on a state that differs from the old one in its inputs alone. -/
theorem stepKeepsInvariant : Obligations.StepKeepsInvariant := by
  intro s t h hstep
  obtain ⟨-, rfl⟩ | ⟨c, ws, ts, -, hx⟩ := step_cases hstep
  · exact h
  · exact exec_keeps_inv (h.congr_inputs s.trace ws ts) hx

/-- Settles O46: the reset state is its own reset, and its depth is 16 (log 1). -/
theorem resetMeetsInvariant : Obligations.ResetMeetsInvariant :=
  inv_toReset (s := State.reset) (by decide)

end Sys2Proof.Machine
end

section
/-! Who writes `running`, `fatal_reported` and `phase` (10_state.md R21, R23, R26): every other instruction leaves them. -/

namespace Sys2Proof.Machine

/-- Settles O48: of the ways an instruction can complete, four write `running`. -/
theorem runningWriters : Obligations.RunningWriters := by
  intro i s t h hne
  cases exec_cases h
  case openOk hi hp ht => exact .inl ⟨hi, by simp [ht]⟩
  case ioerr hi hg ht => exact .inr (.inl ⟨hi, by simp [ht]⟩)
  case discRunning hi hp ht => exact .inr (.inr (.inl ⟨hi, hp, by simp [ht]⟩))
  case rst hi ht => exact .inr (.inr (.inr ⟨hi, by simp [ht]⟩))
  all_goals
    rename_i ht
    exact absurd (by simp [ht]) hne

/-- IOERR and RST aside, no instruction writes `fatal_reported`. -/
theorem exec_fatalReported_eq {i : Instr} {s t : State} (h : exec i s = .next t) (hio : i ≠ .ioerr) (hrst : i ≠ .rst) :
    t.fatalReported = s.fatalReported := by
  cases exec_cases h
  case ioerr hi _ _ => exact absurd hi hio
  case rst hi _ => exact absurd hi hrst
  all_goals
    rename_i ht
    simp [ht]

theorem exec_ioerr_fatalReported {s t : State} (h : exec .ioerr s = .next t) : t.fatalReported = true := by
  obtain ⟨-, rfl⟩ := guarded_next.mp h
  exact s.takeFatal_fatalReported

theorem exec_rst_fatalReported {s t : State} (h : exec .rst s = .next t) : t.fatalReported = false := by
  obtain rfl : s.toReset = t := Host.Outcome.next.inj h
  exact s.toReset_fatalReported

/-- Settles O49: IOERR sets the flag, RST clears it, and every other instruction leaves it. -/
theorem fatalReportedSticky : Obligations.FatalReportedSticky := by
  intro i s t h
  by_cases hio : i = .ioerr
  · subst hio
    have hset := exec_ioerr_fatalReported h
    exact ⟨fun _ _ => hset, fun _ _ => rfl, fun _ => hset, nofun⟩
  by_cases hrst : i = .rst
  · subst hrst
    have hclear := exec_rst_fatalReported h
    exact ⟨fun _ hne => absurd rfl hne, fun _ ht => by simp [hclear] at ht, nofun, fun _ => hclear⟩
  · have heq := exec_fatalReported_eq h hio hrst
    exact ⟨fun hs _ => heq.trans hs, fun hs ht => by simp [heq, hs] at ht, fun hi => absurd hi hio,
      fun hi => absurd hi hrst⟩

/-- Settles O50: of the ways an instruction can complete, the listed ones write `phase`. IOERR does so in phase Running
only. -/
theorem phaseMovesAreListed : Obligations.PhaseMovesAreListed := by
  intro i s t h hne
  cases exec_cases h
  case connAccept hi hp ht => exact .inl ⟨hi, hp, by simp [ht]⟩
  case openOk hi hp ht => exact .inr (.inl ⟨hi, hp, by simp [ht]⟩)
  case openFail hi hp ht => exact .inr (.inr (.inl ⟨hi, hp, by simp [ht]⟩))
  case discIdle hi hp ht => exact .inr (.inr (.inr (.inl ⟨hi, hp, by simp [ht]⟩)))
  case discRunning hi hp ht => exact .inr (.inr (.inr (.inr (.inl ⟨hi, hp, by simp [ht]⟩))))
  case ioerr hi hg ht =>
    have hp : s.phase = .running := by
      by_contra hp
      exact hne (by simp [ht, hp])
    exact .inr (.inr (.inr (.inr (.inr (.inl ⟨hi, hp, by simp [ht, hp]⟩)))))
  case joinDone hi hg ht =>
    obtain ⟨hp, -, -⟩ := State.canJoinDone_iff.mp hg
    exact .inr (.inr (.inr (.inr (.inr (.inr (.inl ⟨.inl hi, hp, by simp [ht]⟩))))))
  case joinTo hi hg ht =>
    obtain ⟨hp, -, -⟩ := State.canJoinTo_iff.mp hg
    exact .inr (.inr (.inr (.inr (.inr (.inr (.inl ⟨.inr hi, hp, by simp [ht]⟩))))))
  case rst hi ht => exact .inr (.inr (.inr (.inr (.inr (.inr (.inr ⟨hi, by simp [ht]⟩))))))
  all_goals
    rename_i ht
    exact absurd (by simp [ht]) hne

end Sys2Proof.Machine
end

section
/-! Where FRAME_DONE has no step, the values after reset, and the codes of the status outputs (10_state.md R21, R22, R27,
R30, R35). -/

namespace Sys2Proof.Machine

theorem FrameBuffer.bytes_eq_none {f : FrameBuffer} :
    f.bytes = none ↔ f.c0 = none ∨ f.c1 = none ∨ f.c2 = none ∨ f.c3 = none := by
  obtain ⟨_ | _, _ | _, _ | _, _ | _⟩ := f <;> simp [FrameBuffer.bytes]

theorem frameStep_of_not {m : String} {r : Except DiagCode Event} {s : State} (h : s.canFrameDone = false) :
    frameStep m r s = .refused (.notEnabled m) := by
  simp [frameStep, h]

theorem execFrameDone_of_bytes_none {s : State} (hg : s.canFrameDone = true) (hb : s.fb.bytes = none) :
    execFrameDone s = .fault .emptyFrameCell := by
  simp [execFrameDone, hb, hg]

/-- Outside its guard FRAME_DONE is refused, whatever the cells hold (log 8). -/
theorem execFrameDone_of_not {s : State} (hg : s.canFrameDone = false) :
    execFrameDone s = .refused (.notEnabled "FRAME_DONE") := by
  unfold execFrameDone
  split
  · exact frameStep_of_not hg
  · simp [hg]

/-- Settles O26: inside the guard a missing byte is the fault (I12), outside it there is no step. -/
theorem frameDoneStops : Obligations.FrameDoneStops := by
  intro s
  constructor
  · intro hw hc hcell
    exact execFrameDone_of_bytes_none (State.canFrameDone_iff.mpr ⟨hw, hc⟩) (FrameBuffer.bytes_eq_none.mpr hcell)
  · intro hout
    refine execFrameDone_of_not (Bool.eq_false_of_not_eq_true fun hg => ?_)
    obtain ⟨hw, hc⟩ := State.canFrameDone_iff.mp hg
    exact hout.elim (absurd hw) (absurd hc)

/-- Settles O35: `State.reset` and the ROM are written with these values. -/
theorem resetStateValues : Obligations.ResetStateValues :=
  ⟨rfl, rfl, rfl, rfl, rfl, rfl, rfl, rfl, rfl, rfl, rfl⟩

theorem Phase.ofCode_code (p : Phase) : Phase.ofCode p.code = .ok p := by
  cases p <;> rfl

theorem WState.ofCode_code (w : WState) : WState.ofCode w.code = w := by
  cases w <;> rfl

/-- The codes 0 to 4 are those of the phases (R21). -/
theorem Phase.exists_code_eq {c : BitVec 3} (hc : c.toNat < 5) : ∃ p : Phase, p.code = c := by
  have hcases : c = 0 ∨ c = 1 ∨ c = 2 ∨ c = 3 ∨ c = 4 := by bv_omega
  rcases hcases with rfl | rfl | rfl | rfl | rfl
  exacts [⟨.idle, rfl⟩, ⟨.connecting, rfl⟩, ⟨.running, rfl⟩, ⟨.stopping, rfl⟩, ⟨.closed, rfl⟩]

/-- No phase has a code from 5 to 7 (R21, I17). -/
theorem Phase.ofCode_unused {c : BitVec 3} (hc : 5 ≤ c.toNat) : Phase.ofCode c = .error (.unusedPhase c) := by
  unfold Phase.ofCode
  split
  case h_6 => rfl
  all_goals omega

theorem State.cmdBusy_iff {s : State} :
    s.cmdBusy = true ↔ s.phase = .connecting ∨ (s.phase = .stopping ∧ s.discPending = true) := by
  simp [State.cmdBusy]

theorem State.workerAlive_iff {s : State} : s.workerAlive = true ↔ s.wstate ≠ .wNone := decide_eq_true_iff

/-- Settles O36: the derived signals by their definitions, and the codes by decoding what was encoded. -/
theorem statusOutputValues : Obligations.StatusOutputValues := by
  refine ⟨fun s => ?_, fun c hc => ?_, fun c hc => Phase.ofCode_unused hc, rfl, rfl⟩
  · exact ⟨State.cmdBusy_iff, State.workerAlive_iff, s.phase.ofCode_code, s.wstate.ofCode_code,
      rfl, rfl, rfl, rfl, rfl, rfl, rfl⟩
  · obtain ⟨p, rfl⟩ := Phase.exists_code_eq hc
    exact ⟨p, p.ofCode_code, rfl⟩

end Sys2Proof.Machine
end

section
/-! No step reads the trace (10_state.md R33): putting older records in front of the trace commutes with every operation,
with every instruction, and with a step. -/

namespace Sys2Proof.Machine

/-- The state with older records in front of its trace. -/
def State.after (s : State) (os : List Record) : State := { s with trace := os ++ s.trace }

/-- An outcome with older records in front of the next state's trace; a stop holds no trace. -/
def outcomeAfter (os : List Record) : Host.Outcome State Fault Refusal → Host.Outcome State Fault Refusal
  | .next t => .next (t.after os)
  | .fault r => .fault r
  | .refused r => .refused r

section After

variable (s : State) (os : List Record)

@[simp] theorem State.after_fb : (s.after os).fb = s.fb := rfl
@[simp] theorem State.after_cfg : (s.after os).cfg = s.cfg := rfl
@[simp] theorem State.after_script : (s.after os).script = s.script := rfl
@[simp] theorem State.after_sched : (s.after os).sched = s.sched := rfl
@[simp] theorem State.after_canFrameDone : (s.after os).canFrameDone = s.canFrameDone := rfl
@[simp] theorem State.after_nextInternal : (s.after os).nextInternal = s.nextInternal := rfl
@[simp] theorem State.after_internalCode (k : InternalStep) : (s.after os).internalCode k = s.internalCode k := rfl

/-- A state is the one with no record, after the records it holds. -/
theorem State.after_of_nil : ({ s with trace := [] } : State).after os = { s with trace := os } := by
  simp [State.after]

theorem State.emit_after (o : Record) : (s.after os).emit o = (s.emit o).after os := by
  simp [State.emit, State.after]

theorem State.receive_after (b : Byte) : (s.after os).receive b = (s.receive b).after os := by
  simp only [State.receive, apply_ite (State.after · os)]
  rfl

theorem State.takeByte_after : (s.after os).takeByte = s.takeByte.after os := by
  cases hq : s.rxq <;> simp [State.takeByte, State.after, hq]

theorem State.finishFrame_after (r : Except DiagCode Event) :
    (s.after os).finishFrame r = (s.finishFrame r).after os := by
  cases r with
  | ok e => exact State.emit_after { s.clearWindow with evt := some e, wstate := .wEmit } os (.evt e)
  | error c => exact State.emit_after { s.clearWindow with wstate := .wCheck } os (.diag c)

theorem State.takeFatal_after : (s.after os).takeFatal = s.takeFatal.after os := by
  cases hf : s.fatalReported <;> simp [State.takeFatal, State.clearWindow, State.emit, State.after, hf]

theorem State.closePort_after : (s.after os).closePort = s.closePort.after os := by
  simp [State.closePort, State.emit, State.after]

theorem State.disconnect_after : (s.after os).disconnect = s.disconnect.after os := by
  cases hp : s.phase <;> simp [State.disconnect, State.emit, State.after, hp]

/-- A guard that reads no record, on an effect that only adds some. -/
theorem guarded_after {m : String} {g : Bool} {t u : State} (h : u = t.after os) :
    guarded m g u = outcomeAfter os (guarded m g t) := by
  subst h
  cases g <;> rfl

theorem frameStep_after (m : String) (r : Except DiagCode Event) :
    frameStep m r (s.after os) = outcomeAfter os (frameStep m r s) := by
  simp only [frameStep, State.after_canFrameDone, State.finishFrame_after, apply_ite (outcomeAfter os)]
  rfl

theorem execFrameDone_after : execFrameDone (s.after os) = outcomeAfter os (execFrameDone s) := by
  cases hb : s.fb.bytes with
  | some bs =>
    simp only [execFrameDone, State.after_fb, State.after_cfg, hb]
    exact frameStep_after s os _ _
  | none =>
    simp only [execFrameDone, State.after_fb, State.after_canFrameDone, hb, apply_ite (outcomeAfter os)]
    rfl

theorem execConn_after : execConn (s.after os) = outcomeAfter os (execConn s) := by
  refine guarded_after os ?_
  simp only [apply_ite (State.after · os), ← State.emit_after]
  rfl

/-- Every instruction does the same after any older records. -/
theorem exec_after (i : Instr) : exec i (s.after os) = outcomeAfter os (exec i s) := by
  cases i
  case rx b => exact congrArg Host.Outcome.next (s.receive_after os b)
  case ioerr => exact guarded_after os (s.takeFatal_after os)
  case conn => exact execConn_after s os
  case openOk =>
    exact guarded_after os (State.emit_after
      { s with portOpen := true, rxq := [], running := true, wstate := .wCheck, phase := .running } os (.doneConn true))
  case openFail => exact guarded_after os (State.emit_after { s with phase := .idle } os (.doneConn false))
  case disc => exact guarded_after os (s.disconnect_after os)
  case joinTo | joinDone => exact guarded_after os (s.closePort_after os)
  case byteTake => exact guarded_after os (s.takeByte_after os)
  case frameDone => exact execFrameDone_after s os
  case rst | reservedStim => rfl
  case exp | ack | loopTestRun | loopTestExit => exact guarded_after os rfl
  all_goals exact frameStep_after s os _ _

/-- The fetch finds the same code, and leaves the trace where it was. -/
theorem State.fetch_after : (s.after os).fetch = s.fetch.map fun ct => (ct.1, ct.2.after os) := by
  simp only [State.fetch, State.after_nextInternal, State.after_script, State.after_sched, State.after_internalCode]
  rcases s.nextInternal with _ | k <;> rcases s.script with _ | ⟨w, ws⟩
  case some.cons => rcases s.sched with _ | ⟨_ | _, ts⟩ <;> rfl
  all_goals rfl

theorem step_after : step (s.after os) = outcomeAfter os (step s) := by
  unfold step
  rw [State.fetch_after]
  cases s.fetch with
  | none => rfl
  | some ct => exact exec_after ct.2 os (decode ct.1)

end After

/-- Settles O57: both traces are put in front of the one step that starts with no record. -/
theorem traceIsNeverRead : Obligations.TraceIsNeverRead := by
  intro s os
  have hsplit : ∀ tr, step { s with trace := tr } = outcomeAfter tr (step { s with trace := [] }) := fun tr => by
    rw [← step_after, State.after_of_nil]
  have hstep : step s = outcomeAfter s.trace (step { s with trace := [] }) := hsplit s.trace
  rw [hstep, hsplit os]
  cases step { s with trace := [] } with
  | next t => exact ⟨t.trace, rfl, rfl⟩
  | fault r => exact rfl
  | refused r => exact rfl

end Sys2Proof.Machine
end

section
/-! What the command unit leaves to the worker (20_memory.md R58, 45_lifecycle.md R202): connect, the port's answers,
disconnect and its two ends write no element of the read window. -/

namespace Sys2Proof.Machine

/-- A complete frame is the worker's own step (R164), not the command unit's. -/
theorem isLifecycleStep_of_isFrameRow {i : Instr} (h : isFrameRow i = true) : isLifecycleStep i = false := by
  cases i
  case conn | openOk | openFail | disc | joinTo | joinDone => cases h
  all_goals rfl

/-- Settles O54: of the command unit's steps, OPEN_OK alone starts a worker (R192), and OPEN_OK, JOIN_DONE and JOIN_TO
alone write the queue and the port (R192, R198, R199). -/
theorem commandUnitLeavesWorker : Obligations.CommandUnitLeavesWorker := by
  intro i s t hcu h
  cases exec_cases h
  case openOk hi _ ht =>
    subst ht
    exact ⟨rfl, rfl, rfl, rfl, fun hne => absurd hi hne, fun hne => absurd hi hne⟩
  case joinDone hi _ ht =>
    subst ht
    exact ⟨rfl, rfl, rfl, rfl, fun _ => rfl, fun _ hne => absurd hi hne⟩
  case joinTo hi _ ht =>
    subst ht
    exact ⟨rfl, rfl, rfl, rfl, fun _ => rfl, fun _ _ hne => absurd hi hne⟩
  case connAccept ht | connRefuse ht | openFail ht | discIdle ht | discRunning ht | discAfterFault ht | discClosed ht =>
    subst ht
    exact ⟨rfl, rfl, rfl, rfl, fun _ => rfl, fun _ _ _ => ⟨rfl, rfl⟩⟩
  case frame hi _ _ _ => simp [isLifecycleStep_of_isFrameRow hi] at hcu
  case rx hi _ | rst hi _ | exp hi _ _ | ioerr hi _ _ | ack hi _ _ | loopTestRun hi _ _ | loopTestExit hi _ _ |
      byteTake hi _ _ =>
    subst hi
    cases hcu

end Sys2Proof.Machine
end

section
/-! The frame words of the decode-class map (30_encoding.md R70 to R74): each row's condition, the word each row decodes
from, and what the decoder can answer, said once. -/

namespace Sys2Proof.Machine

theorem packFrame_inj {a0 a1 a2 a3 b0 b1 b2 b3 : Byte} :
    packFrame a0 a1 a2 a3 = packFrame b0 b1 b2 b3 ↔ a0 = b0 ∧ a1 = b1 ∧ a2 = b2 ∧ a3 = b3 := by
  constructor
  · intro h
    have h0 := congrArg frameB0 h
    have h1 := congrArg frameB1 h
    have h2 := congrArg frameB2 h
    have h3 := congrArg frameB3 h
    simp only [frameB0_packFrame, frameB1_packFrame, frameB2_packFrame, frameB3_packFrame] at h0 h1 h2 h3
    exact ⟨h0, h1, h2, h3⟩
  · rintro ⟨rfl, rfl, rfl, rfl⟩
    rfl

/-- A frame whose first checksum pair holds is no security candidate (R111). -/
theorem hiNibble_ne_complement (b : Byte) : hiNibble b ≠ hiNibble (~~~b) := by
  revert b; decide

/-- The two function bytes that have a row of their own set bit 7 (R74 rows 4 and 5). -/
theorem ne_corner_of_bit7 {b : Byte} (h : b.getLsbD 7 = false) : b ≠ 0x98#8 ∧ b ≠ 0x88#8 := by
  constructor
  all_goals
    rintro rfl
    cases h

@[simp] theorem secParts_secInstr (n : Nibble) (f : SecFrame) : secParts (secInstr n f) = some (n, f) := by
  obtain ⟨n⟩ := n
  fin_cases n <;> rfl

/-- The class nibble and the free bits name one row of SEC_0 to SEC_F. -/
theorem secParts_eq_some_iff {i : Instr} {n : Nibble} {f : SecFrame} :
    secParts i = some (n, f) ↔ i = secInstr n f := by
  constructor
  · intro h
    cases i
    all_goals cases h
    all_goals rfl
  · rintro rfl
    exact secParts_secInstr n f

theorem encode_of_secParts {i : Instr} {n : Nibble} {f : SecFrame} (h : secParts i = some (n, f)) :
    encode i = .frame (secWord n f) := by
  cases i
  all_goals cases h
  all_goals rfl

theorem wellFormed_of_secParts {i : Instr} {n : Nibble} {f : SecFrame} (h : secParts i = some (n, f)) :
    i.wellFormed = true := by
  cases i
  all_goals cases h
  all_goals rfl

/-- The function byte of a report is the one its three free bits spell (R71). -/
theorem secFunctionByte_secFields {b0 b1 b2 b3 : Byte} (hm : b2 &&& 0x7A#8 = 0#8) :
    secFunctionByte (secFields (packFrame b0 b1 b2 b3)) = b2 := by
  have hbits : ∀ b : Byte, b &&& 0x7A#8 = 0#8 →
      BitVec.ofBool (b.getLsbD 7) ++ 0#4 ++ BitVec.ofBool (b.getLsbD 2) ++ 0#1 ++ BitVec.ofBool (b.getLsbD 0) = b := by
    decide
  simp only [secFunctionByte, secFields, frameB2_packFrame]
  exact hbits b2 hm

/-- The bits of a report's function byte that a rule reads, or that the mask lets through (R71, R103 to R105). -/
theorem secFunctionByte_getLsbD (f : SecFrame) :
    (secFunctionByte f).getLsbD 7 = f.closed ∧ (secFunctionByte f).getLsbD 4 = false ∧
      (secFunctionByte f).getLsbD 2 = f.bit2 ∧ (secFunctionByte f).getLsbD 0 = f.lowBattery := by
  have hbits : ∀ c x l : Bool,
      let b : Byte := BitVec.ofBool c ++ 0#4 ++ BitVec.ofBool x ++ 0#1 ++ BitVec.ofBool l
      b.getLsbD 7 = c ∧ b.getLsbD 4 = false ∧ b.getLsbD 2 = x ∧ b.getLsbD 0 = l := by decide
  exact hbits f.closed f.bit2 f.lowBattery

theorem secFields_secWord (n : Nibble) (f : SecFrame) : secFields (secWord n f) = f := by
  obtain ⟨hclosed, -, hbit2, hlow⟩ := secFunctionByte_getLsbD f
  simp only [secFields, secWord, frameB0_packFrame, frameB1_packFrame, frameB2_packFrame, frameB3_packFrame,
    loNibble_append, hclosed, hbit2, hlow]

theorem wellFormed_dropSecMask {b0 b1 b2 b3 : Byte} :
    (Instr.dropSecMask b0 b1 b2 b3).wellFormed = true ↔ hiNibble b0 = hiNibble b1 ∧ b2 &&& 0x7A#8 ≠ 0#8 := by
  simp only [Instr.wellFormed, hiNibble, Bool.and_eq_true, decide_eq_true_eq]

theorem wellFormed_dropChecksum {b0 b1 b2 b3 : Byte} :
    (Instr.dropChecksum b0 b1 b2 b3).wellFormed = true ↔
      hiNibble b0 ≠ hiNibble b1 ∧ ¬ (b1 = ~~~b0 ∧ b3 = ~~~b2) := by
  simp only [Instr.wellFormed, hiNibble, Bool.and_eq_true, decide_eq_true_eq, Bool.not_eq_true', ← Bool.decide_and,
    decide_eq_false_iff_not]

theorem wellFormed_x10Off {b0 b2 : Byte} :
    (Instr.x10Off b0 b2).wellFormed = true ↔ b2.getLsbD 7 = false ∧ b2.getLsbD 5 = true := by
  simp only [Instr.wellFormed, Bool.and_eq_true, Bool.not_eq_true']

theorem wellFormed_x10On {b0 b2 : Byte} :
    (Instr.x10On b0 b2).wellFormed = true ↔ b2.getLsbD 7 = false ∧ b2.getLsbD 5 = false := by
  simp only [Instr.wellFormed, Bool.and_eq_true, Bool.not_eq_true']

theorem wellFormed_dropUnsupportedCmd {b0 b2 : Byte} :
    (Instr.dropUnsupportedCmd b0 b2).wellFormed = true ↔
      b2.getLsbD 7 = true ∧ b2 ≠ 0x98#8 ∧ b2 ≠ 0x88#8 := by
  simp only [Instr.wellFormed, Bool.and_eq_true, decide_eq_true_eq, and_assoc]

theorem decodeFrame_sec {b0 b1 b2 b3 : Byte} (hc : hiNibble b0 = hiNibble b1) (hm : b2 &&& 0x7A#8 = 0#8) :
    decodeFrame (packFrame b0 b1 b2 b3) = secInstr (hiNibble b0) (secFields (packFrame b0 b1 b2 b3)) := by
  simp [decodeFrame, hc, hm]

theorem decodeFrame_dropSecMask {b0 b1 b2 b3 : Byte} (hc : hiNibble b0 = hiNibble b1) (hm : b2 &&& 0x7A#8 ≠ 0#8) :
    decodeFrame (packFrame b0 b1 b2 b3) = .dropSecMask b0 b1 b2 b3 := by
  simp [decodeFrame, hc, hm]

theorem decodeFrame_dropChecksum {b0 b1 b2 b3 : Byte} (hc : hiNibble b0 ≠ hiNibble b1)
    (hk : ¬ (b1 = ~~~b0 ∧ b3 = ~~~b2)) : decodeFrame (packFrame b0 b1 b2 b3) = .dropChecksum b0 b1 b2 b3 := by
  simp only [decodeFrame, frameB0_packFrame, frameB1_packFrame, frameB2_packFrame, frameB3_packFrame, if_neg hc,
    if_pos hk]

/-- Once both checksum pairs hold, the function byte alone decides the row (R74 rows 4 to 8). -/
theorem decodeFrame_x10Word (b0 b2 : Byte) :
    decodeFrame (x10Word b0 b2) =
      if b2 = 0x98#8 then .x10Off19 b0
      else if b2 = 0x88#8 then .x10On11 b0
      else if b2.getLsbD 7 then .dropUnsupportedCmd b0 b2
      else if b2.getLsbD 5 then .x10Off b0 b2
      else .x10On b0 b2 := by
  simp [decodeFrame, x10Word, hiNibble_ne_complement]

theorem decodeFrame_secWord (n : Nibble) (f : SecFrame) : decodeFrame (secWord n f) = secInstr n f := by
  have hrow := decodeFrame_sec (b0 := n ++ f.addrHi) (b1 := n ++ f.addrLo) (b3 := f.tail)
    (by simp only [hiNibble_append]) (Laws.EncodeFitsRow.secFunctionByte_and f)
  have hfields := secFields_secWord n f
  rw [secWord] at hfields ⊢
  rw [hrow, hiNibble_append, hfields]

/-- What the decoder can answer for four bytes: one row of R74, under that row's condition. -/
inductive FrameRow (b0 b1 b2 b3 : Byte) (i : Instr) : Prop where
  | sec (n : Nibble) (f : SecFrame) (hw : packFrame b0 b1 b2 b3 = secWord n f) (hi : i = secInstr n f)
  | dropSecMask (hc : hiNibble b0 = hiNibble b1) (hm : b2 &&& 0x7A#8 ≠ 0#8) (hi : i = .dropSecMask b0 b1 b2 b3)
  | dropChecksum (hc : hiNibble b0 ≠ hiNibble b1) (hk : ¬ (b1 = ~~~b0 ∧ b3 = ~~~b2))
      (hi : i = .dropChecksum b0 b1 b2 b3)
  | x10Off19 (h1 : b1 = ~~~b0) (h3 : b3 = ~~~b2) (h2 : b2 = 0x98#8) (hi : i = .x10Off19 b0)
  | x10On11 (h1 : b1 = ~~~b0) (h3 : b3 = ~~~b2) (h2 : b2 = 0x88#8) (hi : i = .x10On11 b0)
  | dropUnsupportedCmd (h1 : b1 = ~~~b0) (h3 : b3 = ~~~b2) (h98 : b2 ≠ 0x98#8) (h88 : b2 ≠ 0x88#8)
      (h7 : b2.getLsbD 7 = true) (hi : i = .dropUnsupportedCmd b0 b2)
  | x10Off (h1 : b1 = ~~~b0) (h3 : b3 = ~~~b2) (h7 : b2.getLsbD 7 = false) (h5 : b2.getLsbD 5 = true)
      (hi : i = .x10Off b0 b2)
  | x10On (h1 : b1 = ~~~b0) (h3 : b3 = ~~~b2) (h7 : b2.getLsbD 7 = false) (h5 : b2.getLsbD 5 = false)
      (hi : i = .x10On b0 b2)

/-- A security candidate that passes the mask is the word of the row of its class nibble. -/
theorem packFrame_eq_secWord {b0 b1 b2 b3 : Byte} (hc : hiNibble b0 = hiNibble b1) (hm : b2 &&& 0x7A#8 = 0#8) :
    packFrame b0 b1 b2 b3 = secWord (hiNibble b0) (secFields (packFrame b0 b1 b2 b3)) := by
  have h1 : hiNibble b0 ++ loNibble b1 = b1 := by rw [hc, nibbles_append]
  rw [secWord, secFunctionByte_secFields hm]
  simp only [secFields, frameB0_packFrame, frameB1_packFrame, frameB3_packFrame, nibbles_append, h1]

theorem frameRow_decodeFrame (b0 b1 b2 b3 : Byte) :
    FrameRow b0 b1 b2 b3 (decodeFrame (packFrame b0 b1 b2 b3)) := by
  by_cases hc : hiNibble b0 = hiNibble b1
  · by_cases hm : b2 &&& 0x7A#8 = 0#8
    · exact .sec _ _ (packFrame_eq_secWord hc hm) (decodeFrame_sec hc hm)
    · exact .dropSecMask hc hm (decodeFrame_dropSecMask hc hm)
  by_cases hk : b1 = ~~~b0 ∧ b3 = ~~~b2
  · have hrow := decodeFrame_x10Word b0 b2
    obtain ⟨h1, h3⟩ := hk
    rw [x10Word, ← h1, ← h3] at hrow
    split_ifs at hrow with h98 h88 h7 h5
    · exact .x10Off19 h1 h3 h98 hrow
    · exact .x10On11 h1 h3 h88 hrow
    · exact .dropUnsupportedCmd h1 h3 h98 h88 h7 hrow
    · exact .x10Off h1 h3 (Bool.eq_false_of_not_eq_true h7) h5 hrow
    · exact .x10On h1 h3 (Bool.eq_false_of_not_eq_true h7) (Bool.eq_false_of_not_eq_true h5) hrow
  · exact .dropChecksum hc hk (decodeFrame_dropChecksum hc hk)

/-- A frame is the code of the well-formed row it decodes to. -/
theorem encode_decodeFrame (w : FrameWord) :
    encode (decodeFrame w) = .frame w ∧ (decodeFrame w).wellFormed = true := by
  have hrow := frameRow_decodeFrame (frameB0 w) (frameB1 w) (frameB2 w) (frameB3 w)
  have hw := packFrame_bytes w
  rw [hw] at hrow
  cases hrow with
  | sec n f hsec hi =>
    have hp : secParts (decodeFrame w) = some (n, f) := secParts_eq_some_iff.mpr hi
    exact ⟨by rw [encode_of_secParts hp, ← hsec, hw], wellFormed_of_secParts hp⟩
  | dropSecMask hc hm hi =>
    exact hi ▸ ⟨congrArg Code.frame hw, wellFormed_dropSecMask.mpr ⟨hc, hm⟩⟩
  | dropChecksum hc hk hi =>
    exact hi ▸ ⟨congrArg Code.frame hw, wellFormed_dropChecksum.mpr ⟨hc, hk⟩⟩
  | x10Off19 h1 h3 h2 hi | x10On11 h1 h3 h2 hi =>
    rw [h3, h1, h2] at hw
    exact hi ▸ ⟨congrArg Code.frame hw, rfl⟩
  | dropUnsupportedCmd h1 h3 h98 h88 h7 hi =>
    rw [h3, h1] at hw
    exact hi ▸ ⟨congrArg Code.frame hw, wellFormed_dropUnsupportedCmd.mpr ⟨h7, h98, h88⟩⟩
  | x10Off h1 h3 h7 h5 hi =>
    rw [h3, h1] at hw
    exact hi ▸ ⟨congrArg Code.frame hw, wellFormed_x10Off.mpr ⟨h7, h5⟩⟩
  | x10On h1 h3 h7 h5 hi =>
    rw [h3, h1] at hw
    exact hi ▸ ⟨congrArg Code.frame hw, wellFormed_x10On.mpr ⟨h7, h5⟩⟩

end Sys2Proof.Machine
end

section
/-! The stimulus words (30_encoding.md R78, R80) by their three fields, and the two round trips of the encoding. -/

namespace Sys2Proof.Machine

@[simp] theorem stimWord_op (op : Nibble) (b : Byte) : (stimWord op b).extractLsb' 12 4 = op := by
  rw [stimWord, BitVec.append_assoc]
  exact BitVec.extractLsb'_append_eq_left

/-- The operation of a word as a number; the reserved field and the operand follow (R78). -/
theorem toNat_opField (w : StimWord) : (w.extractLsb' 12 4).toNat = w.toNat / 4096 := by
  rw [BitVec.extractLsb'_toNat, Nat.shiftRight_eq_div_pow]
  omega

theorem toNat_zeroField (w : StimWord) : (w.extractLsb' 8 4).toNat = w.toNat / 256 % 16 := by
  rw [BitVec.extractLsb'_toNat, Nat.shiftRight_eq_div_pow]

theorem toNat_operandField (w : StimWord) : (w.extractLsb' 0 8).toNat = w.toNat % 256 := by
  rw [BitVec.extractLsb'_toNat, Nat.shiftRight_zero]

theorem toNat_stimWord (op : Nibble) (b : Byte) : (stimWord op b).toNat = op.toNat * 4096 + b.toNat := by
  simp only [stimWord, toNat_append_add, BitVec.toNat_ofNat]
  omega

/-- R80 in numbers: a reserved operation, a bit of `S[11:8]`, or an operand where the operation has none. -/
theorem reservedWord_iff {w : StimWord} :
    reservedWord w = true ↔
      (w.toNat / 4096 = 0 ∨ 10 ≤ w.toNat / 4096 ∧ w.toNat / 4096 ≤ 14) ∨ w.toNat / 256 % 16 ≠ 0 ∨
        (w.toNat / 4096 ≠ 1 ∧ w.toNat % 256 ≠ 0) := by
  simp only [reservedWord, Bool.or_eq_true, Bool.and_eq_true, decide_eq_true_eq, ne_eq, BitVec.le_def,
    ← BitVec.toNat_inj, toNat_opField, toNat_zeroField, toNat_operandField, BitVec.toNat_ofNat, or_assoc]

/-- `RX` is the operation whose operand is free (R78). -/
theorem stimWord_operand_eq {w : StimWord} (h : reservedWord w = false) (hop : w.toNat / 4096 = 1) :
    stimWord 0x1#4 (w.extractLsb' 0 8) = w := by
  rw [← Bool.not_eq_true, reservedWord_iff] at h
  rw [← BitVec.toNat_inj, toNat_stimWord, toNat_operandField, BitVec.toNat_ofNat]
  omega

/-- Every other operation that R78 names has the operand zero. -/
theorem stimWord_zero_eq {w : StimWord} {op : Nibble} (h : reservedWord w = false) (hop : w.toNat / 4096 = op.toNat)
    (hne : op.toNat ≠ 1) : stimWord op 0#8 = w := by
  rw [← Bool.not_eq_true, reservedWord_iff] at h
  rw [← BitVec.toNat_inj, toNat_stimWord, BitVec.toNat_ofNat]
  omega

theorem decodeStim_reserved {w : StimWord} (h : reservedWord w = true) : decodeStim w = .reservedStim w := by
  rw [decodeStim, if_pos h]

theorem decodeStim_rx (b : Byte) : decodeStim (stimWord 0x1#4 b) = .rx b := by
  have hw := toNat_stimWord 0x1#4 b
  have hres : reservedWord (stimWord 0x1#4 b) ≠ true := by
    rw [Ne, reservedWord_iff, hw, BitVec.toNat_ofNat]
    omega
  have hoperand : (stimWord 0x1#4 b).extractLsb' 0 8 = b := by
    rw [← BitVec.toNat_inj, toNat_operandField, hw, BitVec.toNat_ofNat]
    omega
  rw [decodeStim, if_neg hres, stimWord_op, hoperand]
  rfl

/-- A stimulus word is the code of the well-formed row it decodes to. -/
theorem encode_decodeStim (w : StimWord) :
    encode (decodeStim w) = .stim w ∧ (decodeStim w).wellFormed = true := by
  cases h : reservedWord w with
  | true => exact decodeStim_reserved h ▸ ⟨rfl, h⟩
  | false =>
    simp only [decodeStim, h, toNat_opField, Bool.false_eq_true, if_false]
    split
    case h_1 hop => exact ⟨congrArg Code.stim (stimWord_operand_eq h hop), rfl⟩
    case h_11 =>
      rw [← Bool.not_eq_true, reservedWord_iff] at h
      simp only [imp_false] at *
      omega
    all_goals
      rename_i hop
      exact ⟨congrArg Code.stim (stimWord_zero_eq h hop (by decide)), rfl⟩

/-- Settles O12: each kind of code has its own decoder. -/
theorem encodeDecodeRoundTrip : Obligations.EncodeDecodeRoundTrip := by
  intro c
  cases c with
  | stim w => exact encode_decodeStim w
  | frame w => exact encode_decodeFrame w
  | internal k => cases k <;> exact ⟨rfl, rfl⟩

theorem decode_encode_of_secParts {i : Instr} {n : Nibble} {f : SecFrame} (h : secParts i = some (n, f)) :
    decode (encode i) = i := by
  rw [encode_of_secParts h, secParts_eq_some_iff.mp h]
  exact decodeFrame_secWord n f

/-- Settles O11: the side condition of a row is what the decoder tests before it answers that row. -/
theorem decodeEncodeRoundTrip : Obligations.DecodeEncodeRoundTrip := by
  intro i hwf
  cases i
  case dropSecMask b0 b1 b2 b3 =>
    obtain ⟨hc, hm⟩ := wellFormed_dropSecMask.mp hwf
    exact decodeFrame_dropSecMask hc hm
  case dropChecksum b0 b1 b2 b3 =>
    obtain ⟨hc, hk⟩ := wellFormed_dropChecksum.mp hwf
    exact decodeFrame_dropChecksum hc hk
  case x10Off19 b0 | x10On11 b0 => exact decodeFrame_x10Word b0 _
  case x10Off b0 b2 =>
    obtain ⟨h7, h5⟩ := wellFormed_x10Off.mp hwf
    obtain ⟨h98, h88⟩ := ne_corner_of_bit7 h7
    simp only [encode, decode, decodeFrame_x10Word, h98, h88, h7, h5, if_false, if_true, Bool.false_eq_true]
  case x10On b0 b2 =>
    obtain ⟨h7, h5⟩ := wellFormed_x10On.mp hwf
    obtain ⟨h98, h88⟩ := ne_corner_of_bit7 h7
    simp only [encode, decode, decodeFrame_x10Word, h98, h88, h7, h5, if_false, Bool.false_eq_true]
  case dropUnsupportedCmd b0 b2 =>
    obtain ⟨h7, h98, h88⟩ := wellFormed_dropUnsupportedCmd.mp hwf
    simp only [encode, decode, decodeFrame_x10Word, h98, h88, h7, if_false, if_true]
  case rx b => exact decodeStim_rx b
  case exp | ioerr | conn | openOk | openFail | disc | joinTo | ack | rst => rfl
  case reservedStim w => exact decodeStim_reserved hwf
  case loopTestRun | loopTestExit | byteTake | frameDone | joinDone => rfl
  all_goals exact decode_encode_of_secParts rfl

/-- Both round trips in one: decoding and encoding are inverse on the well-formed instructions. -/
theorem decode_eq_iff {c : Code} {i : Instr} : decode c = i ↔ encode i = c ∧ i.wellFormed = true := by
  constructor
  · rintro rfl
    exact encodeDecodeRoundTrip c
  · rintro ⟨rfl, hwf⟩
    exact decodeEncodeRoundTrip i hwf

end Sys2Proof.Machine
end

section
/-! What the round trips say of single rows: the condition of each frame class (30_encoding.md R74), the words that are no
stimulus (R80), and words written out from the tables. -/

namespace Sys2Proof.Machine

theorem decodeFrame_eq_iff {w : FrameWord} {i : Instr} :
    decodeFrame w = i ↔ encode i = .frame w ∧ i.wellFormed = true :=
  decode_eq_iff (c := .frame w)

/-- The rows 4 to 8 are answered for frames whose checksum pairs hold (R72, R74). -/
theorem decodeFrame_eq_x10_iff {b0 b1 b2 b3 v : Byte} {i : Instr} (henc : encode i = .frame (x10Word b0 v)) :
    decodeFrame (packFrame b0 b1 b2 b3) = i ↔
      (b1 = ~~~b0 ∧ b3 = ~~~b2) ∧ b2 = v ∧ i.wellFormed = true := by
  rw [decodeFrame_eq_iff, henc, Code.frame.injEq, x10Word, packFrame_inj]
  constructor
  · rintro ⟨⟨-, rfl, rfl, rfl⟩, hwf⟩
    exact ⟨⟨rfl, rfl⟩, rfl, hwf⟩
  · rintro ⟨⟨rfl, rfl⟩, rfl, hwf⟩
    exact ⟨⟨rfl, rfl, rfl, rfl⟩, hwf⟩

/-- The rows SEC_n are answered for candidates that pass the mask (R71, R74). -/
theorem decodeFrame_isSec_iff {b0 b1 b2 b3 : Byte} :
    (∃ f, secParts (decodeFrame (packFrame b0 b1 b2 b3)) = some (hiNibble b0, f)) ↔
      hiNibble b0 = hiNibble b1 ∧ b2 &&& 0x7A#8 = 0#8 := by
  constructor
  · rintro ⟨f, hp⟩
    have henc := (encode_of_secParts hp).symm.trans (encode_decodeFrame _).1
    rw [Code.frame.injEq, secWord, packFrame_inj] at henc
    obtain ⟨-, h1, h2, -⟩ := henc
    exact ⟨h1 ▸ (hiNibble_append _ _).symm, h2 ▸ Laws.EncodeFitsRow.secFunctionByte_and f⟩
  · rintro ⟨hc, hm⟩
    exact ⟨_, secParts_eq_some_iff.mpr (decodeFrame_sec hc hm)⟩

/-- Settles O14: a row is answered exactly when the frame is its code and its side condition holds. -/
theorem frameClassConditions : Obligations.FrameClassConditions := by
  intro b0 b1 b2 b3
  refine ⟨decodeFrame_isSec_iff, ?secMask, ?checksum, ?off19, ?on11, ?off, ?on, ?unsupported⟩
  case secMask => exact decodeFrame_eq_iff.trans ((and_iff_right rfl).trans wellFormed_dropSecMask)
  case checksum => exact decodeFrame_eq_iff.trans ((and_iff_right rfl).trans wellFormed_dropChecksum)
  case off19 | on11 => exact (decodeFrame_eq_x10_iff rfl).trans (and_congr_right' (and_iff_left rfl))
  case off => rw [decodeFrame_eq_x10_iff rfl, wellFormed_x10Off, and_iff_right (rfl : b2 = b2)]
  case on => rw [decodeFrame_eq_x10_iff rfl, wellFormed_x10On, and_iff_right (rfl : b2 = b2)]
  case unsupported => rw [decodeFrame_eq_x10_iff rfl, wellFormed_dropUnsupportedCmd, and_iff_right (rfl : b2 = b2)]

/-- Settles O15: the reserved row's code is the word itself, and its side condition is R80's. -/
theorem reservedStimulusRefused : Obligations.ReservedStimulusRefused := by
  intro w
  refine ⟨?_, fun s => rfl⟩
  have hlist : w.toNat / 4096 ∈ [0x0, 0xA, 0xB, 0xC, 0xD, 0xE] ↔
      w.toNat / 4096 = 0 ∨ 10 ≤ w.toNat / 4096 ∧ w.toNat / 4096 ≤ 14 := by
    simp only [List.mem_cons, List.not_mem_nil, or_false]
    omega
  have hwf : (Instr.reservedStim w).wellFormed = reservedWord w := rfl
  rw [decode_eq_iff, hwf, reservedWord_iff, hlist]
  exact and_iff_right rfl

/-- Settles O13: the decoder evaluates on closed words. -/
theorem wordsFromTheTables : Obligations.WordsFromTheTables := by
  unfold Obligations.WordsFromTheTables
  decide

end Sys2Proof.Machine
end

section
/-! What the frame rows do in a full read window (44_acquisition.md R164), and that FRAME_DONE does the same through the
router (43_router.md R150). -/

namespace Sys2Proof.Machine

/-- In a full window a row of SEC_0 to SEC_F hands its report to the sink. -/
theorem exec_of_secParts {i : Instr} {n : Nibble} {f : SecFrame} {s : State} (h : secParts i = some (n, f))
    (hg : s.canFrameDone = true) :
    exec i s = .next (s.finishFrame (.ok (.security (secEvent s.cfg.minDelaySrc n f)))) := by
  cases i
  all_goals cases h
  all_goals exact frameStep_of hg

/-- Under B2, `min_delay` reads a bit that the mask keeps zero (R71, R104). -/
theorem secMinDelay_b2 (b1 : Byte) (f : SecFrame) : secMinDelay .b2 b1 (secFunctionByte f) = true := by
  obtain ⟨-, h4, -, -⟩ := secFunctionByte_getLsbD f
  rw [secMinDelay, h4, Bool.not_false]

/-- Under B1, `min_delay` reads the lowest bit of the class nibble (R104). -/
theorem secMinDelay_b1 (n x : Nibble) (b2 : Byte) : secMinDelay .b1 (n ++ x) b2 = !n.getLsbD 0 := by
  have hbit : ∀ n x : Nibble, (n ++ x : Byte).getLsbD 4 = n.getLsbD 0 := by decide
  rw [secMinDelay, hbit]

/-- Settles O37: the report's fields are the row's operands, and the mask and the class nibble fix `min_delay`. -/
theorem securityRowsEmitReport : Obligations.SecurityRowsEmitReport := by
  intro i n f s hp hw hc
  rw [exec_of_secParts hp (State.canFrameDone_iff.mpr ⟨hw, hc⟩), secEvent]
  cases s.cfg.minDelaySrc with
  | b2 => rw [secMinDelay_b2]; rfl
  | b1 => rw [secMinDelay_b1]; rfl

/-- Settles O38: the two rows with a fixed function byte read its reversal, 0x19 or 0x11. -/
theorem x10RowsEmitCommand : Obligations.X10RowsEmitCommand := by
  intro b0 b2 s hw hc
  have hg : s.canFrameDone = true := State.canFrameDone_iff.mpr ⟨hw, hc⟩
  have h98 : rev8 0x98#8 = 0x19#8 := by decide
  have h88 : rev8 0x88#8 = 0x11#8 := by decide
  rw [← h98, ← h88]
  exact ⟨frameStep_of hg, frameStep_of hg, frameStep_of hg, frameStep_of hg⟩

/-- Settles O39: a drop row ends its frame with its own diagnostic code. -/
theorem dropRowsEmitDiagnostic : Obligations.DropRowsEmitDiagnostic := by
  intro b0 b1 b2 b3 s hw hc
  have hg : s.canFrameDone = true := State.canFrameDone_iff.mpr ⟨hw, hc⟩
  exact ⟨frameStep_of hg, frameStep_of hg, frameStep_of hg⟩

theorem decodeSecurity_of_cand {src : MinDelaySrc} {b0 b1 b2 b3 : Byte} (hc : hiNibble b0 = hiNibble b1)
    (hm : secMaskOk b2 = true) :
    decodeSecurity src b0 b1 b2 b3 =
      some
        { dev := secDeviceType, address := loNibble b0 ++ loNibble b1, state := secState b2
          lowBattery := secLowBattery b2, minDelay := secMinDelay src b1 b2 } := by
  simp [decodeSecurity, cand_eq, hc, hm, secAddress_eq]

/-- A candidate that fails the mask is no X10 frame either (R111), and its drop names the mask (R151). -/
theorem route_secMask {src : MinDelaySrc} {b0 b1 b2 b3 : Byte} (hc : hiNibble b0 = hiNibble b1)
    (hm : b2 &&& 0x7A#8 ≠ 0#8) : route src b0 b1 b2 b3 = .error .dropSecMask := by
  have hck : ck b0 b1 b2 b3 = false := by
    rw [← Bool.not_eq_true, ck_iff]
    rintro ⟨rfl, -⟩
    exact hiNibble_ne_complement b0 hc
  simp [route, decodeSecurity, decodeX10, dropCode, cand_eq, secMaskOk_eq, hc, hm, hck]

theorem route_checksum {src : MinDelaySrc} {b0 b1 b2 b3 : Byte} (hc : hiNibble b0 ≠ hiNibble b1)
    (hk : ¬ (b1 = ~~~b0 ∧ b3 = ~~~b2)) : route src b0 b1 b2 b3 = .error .dropChecksum := by
  have hck : ck b0 b1 b2 b3 = false := by
    rwa [← Bool.not_eq_true, ck_iff]
  simp [route, decodeSecurity, decodeX10, dropCode, cand_eq, hc, hck]

/-- The router on the word of a report gives the report of its row (R107, R150). -/
theorem route_secWord {src : MinDelaySrc} {n : Nibble} {f : SecFrame} {b0 b1 b2 b3 : Byte}
    (hw : packFrame b0 b1 b2 b3 = secWord n f) :
    route src b0 b1 b2 b3 = .ok (.security (secEvent src n f)) := by
  rw [secWord, packFrame_inj] at hw
  obtain ⟨rfl, rfl, rfl, rfl⟩ := hw
  have hm : secMaskOk (secFunctionByte f) = true := by
    rw [secMaskOk_eq, Laws.EncodeFitsRow.secFunctionByte_and, decide_eq_true rfl]
  have hc : hiNibble (n ++ f.addrHi) = hiNibble (n ++ f.addrLo) := by rw [hiNibble_append, hiNibble_append]
  obtain ⟨h7, -, -, h0⟩ := secFunctionByte_getLsbD f
  rw [route, decodeSecurity_of_cand hc hm]
  simp only [secEvent, loNibble_append, secState, secLowBattery, h7, h0]

/-- The command resolution in the raw bits of the function byte (R121, R125). -/
theorem command_rev8 (b2 : Byte) (u : UnitField) :
    command (rev8 b2) u =
      if b2 = 0x98#8 then .ok (.off, u)
      else if b2 = 0x88#8 then .ok (.on, u + 1#6)
      else if b2.getLsbD 7 then .error .unsupportedCmd
      else if b2.getLsbD 5 then .ok (.off, u)
      else .ok (.on, u) := by
  have h98 : ∀ b : Byte, rev8 b = 0x19#8 ↔ b = 0x98#8 := by decide
  have h88 : ∀ b : Byte, rev8 b = 0x11#8 ↔ b = 0x88#8 := by decide
  have hoff : ∀ b : Byte, rev8 b &&& 0x05#8 = 0x04#8 ↔ b.getLsbD 7 = false ∧ b.getLsbD 5 = true := by decide
  have hon : ∀ b : Byte, rev8 b &&& 0x05#8 = 0x00#8 ↔ b.getLsbD 7 = false ∧ b.getLsbD 5 = false := by decide
  simp only [command, h98, h88, hoff, hon]
  cases b2.getLsbD 7 <;> cases b2.getLsbD 5 <;> rfl

/-- A frame whose checksum pairs hold is the X10 decoder's alone, and the command decides its outcome (R126, R150). -/
theorem route_x10 {src : MinDelaySrc} {b0 b1 b2 b3 : Byte} {c : Cmd} {u : UnitField} (h1 : b1 = ~~~b0)
    (h3 : b3 = ~~~b2) (hcmd : command (rev8 b2) (unitBase (rev8 b0) (rev8 b2)) = .ok (c, u)) :
    route src b0 b1 b2 b3 = .ok (x10Event b0 u c) := by
  have hck : ck b0 b1 b2 b3 = true := (ck_iff _ _ _ _).mpr ⟨h1, h3⟩
  have hc : hiNibble b0 ≠ hiNibble b1 := h1 ▸ hiNibble_ne_complement b0
  simp [route, decodeSecurity, decodeX10, cand_eq, hc, hck, hcmd, x10Event]

theorem route_unsupported {src : MinDelaySrc} {b0 b1 b2 b3 : Byte} (h1 : b1 = ~~~b0)
    (h3 : b3 = ~~~b2) (hcmd : command (rev8 b2) (unitBase (rev8 b0) (rev8 b2)) = .error .unsupportedCmd) :
    route src b0 b1 b2 b3 = .error .dropUnsupportedCmd := by
  have hck : ck b0 b1 b2 b3 = true := (ck_iff _ _ _ _).mpr ⟨h1, h3⟩
  have hc : hiNibble b0 ≠ hiNibble b1 := h1 ▸ hiNibble_ne_complement b0
  simp [route, decodeSecurity, decodeX10, dropCode, cand_eq, hc, hck, hcmd]

/-- The row that a frame decodes to ends in what the router answers for it (R74, R150, R164). -/
theorem exec_decodeFrame {s : State} (hg : s.canFrameDone = true) (b0 b1 b2 b3 : Byte) :
    exec (decodeFrame (packFrame b0 b1 b2 b3)) s = .next (s.finishFrame (route s.cfg.minDelaySrc b0 b1 b2 b3)) := by
  have hcmd := command_rev8 b2 (unitBase (rev8 b0) (rev8 b2))
  cases frameRow_decodeFrame b0 b1 b2 b3 with
  | sec n f hw hi => rw [exec_of_secParts (secParts_eq_some_iff.mpr hi) hg, route_secWord hw]
  | dropSecMask hc hm hi =>
    rw [hi, route_secMask hc hm]
    exact frameStep_of hg
  | dropChecksum hc hk hi =>
    rw [hi, route_checksum hc hk]
    exact frameStep_of hg
  | x10Off19 h1 h3 h2 hi | x10On11 h1 h3 h2 hi =>
    subst h2
    rw [hi, route_x10 h1 h3 hcmd]
    exact frameStep_of hg
  | dropUnsupportedCmd h1 h3 h98 h88 h7 hi =>
    rw [if_neg h98, if_neg h88, if_pos h7] at hcmd
    rw [hi, route_unsupported h1 h3 hcmd]
    exact frameStep_of hg
  | x10Off h1 h3 h7 h5 hi | x10On h1 h3 h7 h5 hi =>
    obtain ⟨h98, h88⟩ := ne_corner_of_bit7 h7
    rw [if_neg h98, if_neg h88, h7, h5] at hcmd
    rw [hi, route_x10 h1 h3 hcmd]
    exact frameStep_of hg

/-- Settles O40: both outcomes are the frame's result from the router. -/
theorem frameDoneRunsFrameClass : Obligations.FrameDoneRunsFrameClass := by
  intro s b0 b1 b2 b3 hfb hw hc
  have hg : s.canFrameDone = true := State.canFrameDone_iff.mpr ⟨hw, hc⟩
  have hdone : exec .frameDone s = .next (s.finishFrame (route s.cfg.minDelaySrc b0 b1 b2 b3)) :=
    execFrameDone_next.mpr ⟨b0, b1, b2, b3, hfb, hg, rfl⟩
  exact ⟨hdone.trans (exec_decodeFrame hg b0 b1 b2 b3).symm, _, hdone⟩

/-- Settles O20: complements meet the checksum (R120), and the two nibbles of the address go where the decoder reads them
(R79, R102). -/
theorem pseudoInstructionFrames : Obligations.PseudoInstructionFrames := by
  refine ⟨fun x y => ⟨rfl, (ck_iff _ _ _ _).mpr ⟨rfl, rfl⟩⟩, fun src h a f t hm => ?_⟩
  have hc : hiNibble (h ++ hiNibble a) = hiNibble (h ++ loNibble a) := by rw [hiNibble_append, hiNibble_append]
  refine ⟨_, _, _, rfl, hiNibble_append h _, decodeSecurity_of_cand hc hm, ?_⟩
  rw [loNibble_append, loNibble_append, nibbles_append]

end Sys2Proof.Machine
end

section
/-! The guards of all instructions (30_encoding.md R78, I18): each instruction's outcome is decided by its enabling
condition, and a state that meets the invariant has no faulting one. -/

namespace Sys2Proof.Machine

/-- An outcome is a next state exactly under the guard, and never a fault. -/
def DecidedBy (g : Bool) (o : Host.Outcome State Fault Refusal) : Prop :=
  ((∃ t, o = .next t) ↔ g = true) ∧ ∀ r, o ≠ .fault r

theorem decidedBy_next (t : State) : DecidedBy true (.next t) :=
  ⟨⟨fun _ => rfl, fun _ => ⟨t, rfl⟩⟩, nofun⟩

theorem decidedBy_refused (r : Refusal) : DecidedBy false (.refused r) := by
  refine ⟨⟨?_, fun h => absurd h Bool.false_ne_true⟩, nofun⟩
  rintro ⟨t, h⟩
  cases h

theorem decidedBy_guarded (m : String) (g : Bool) (t : State) : DecidedBy g (guarded m g t) := by
  cases g with
  | true => exact decidedBy_next t
  | false => exact decidedBy_refused _

theorem decidedBy_frameStep (m : String) (r : Except DiagCode Event) (s : State) :
    DecidedBy s.canFrameDone (frameStep m r s) :=
  decidedBy_guarded m s.canFrameDone (s.finishFrame r)

/-- Under the invariant a full window holds four bytes (R30, R34), so FRAME_DONE does not fault. -/
theorem Inv.decidedBy_frameDone {s : State} (h : Inv s) : DecidedBy s.canFrameDone (execFrameDone s) := by
  cases hg : s.canFrameDone with
  | false => exact execFrameDone_of_not hg ▸ decidedBy_refused _
  | true =>
    obtain ⟨-, hc⟩ := State.canFrameDone_iff.mp hg
    obtain ⟨b0, b1, b2, b3, hfb⟩ := FrameBuffer.eq_full_of_filledTo_four (hc ▸ h.cells)
    have hdone := execFrameDone_next.mpr ⟨b0, b1, b2, b3, hfb, hg, rfl⟩
    exact hdone ▸ decidedBy_next _

/-- Settles O41: FRAME_DONE alone can fault, which the invariant rules out; every other instruction is guarded. -/
theorem guardDecidesCompletion : Obligations.GuardDecidesCompletion := by
  intro i s h
  cases i
  case frameDone => exact h.decidedBy_frameDone
  case rx b => exact decidedBy_next (s.receive b)
  case rst => exact decidedBy_next s.toReset
  case reservedStim w => exact decidedBy_refused (.reservedStimulus w)
  case exp | ioerr | conn | openOk | openFail | disc | joinTo | ack | loopTestRun | loopTestExit | byteTake | joinDone =>
    exact decidedBy_guarded _ _ _
  all_goals exact decidedBy_frameStep _ _ _

end Sys2Proof.Machine
end

section
/-! The words of the outputs as numbers (30_encoding.md R77, R81): the weight of each field of an event word, and that the
word determines the event. -/

namespace Sys2Proof.Machine

/-- A one-bit field as a number, for linear arithmetic on words. -/
theorem ite_eq_mul_toNat (p : Prop) [Decidable p] (k : Nat) : (if p then k else 0) = k * (decide p).toNat := by
  split_ifs with h <;> simp [h]

theorem X10Event.toNat_word (e : X10Event) :
    e.word.toNat =
      e.cmd.code.toNat * 8192 + (if e.unit.isSome then 4096 else 0) + (e.unit.getD 0).toNat * 64 +
        e.house.val * 4 := by
  have hhouse : e.house.val % 2 ^ 4 = e.house.val := Nat.mod_eq_of_lt e.house.isLt
  simp only [X10Event.word, toNat_append_add, BitVec.toNat_ofBool, BitVec.toNat_ofNat, BitVec.ofNat_eq_ofNat, hhouse,
    ite_eq_mul_toNat, Bool.decide_eq_true]
  omega

theorem SecurityEvent.toNat_word (e : SecurityEvent) :
    e.word.toNat =
      32768 + (if e.state = .closed then 16384 else 0) + (if e.lowBattery then 8192 else 0) +
        (if e.minDelay then 4096 else 0) + e.address.toNat := by
  have hdev : e.dev.code.toNat = 0 := rfl
  simp only [SecurityEvent.word, toNat_append_add, BitVec.toNat_ofBool, BitVec.toNat_ofNat, hdev, ite_eq_mul_toNat,
    Bool.decide_eq_true]
  omega

/-- Settles O16: a field's weight is the width of the fields below it. -/
theorem eventWordLayout : Obligations.EventWordLayout :=
  ⟨X10Event.toNat_word, rfl, SecurityEvent.toNat_word⟩

theorem Cmd.code_inj {c c' : Cmd} (h : c.code.toNat = c'.code.toNat) : c = c' := by
  cases c
  all_goals
    cases c'
    all_goals first | rfl | cases h

/-- An absent unit and the unit 0 differ in the bit that says a unit is present (R77). -/
theorem unit_inj {u u' : Option UnitField} (hsome : u.isSome = u'.isSome) (hget : (u.getD 0).toNat = (u'.getD 0).toNat) :
    u = u' := by
  cases u with
  | none => exact (Option.isNone_iff_eq_none.mp (Option.isSome_eq_false_iff.mp hsome.symm)).symm
  | some v =>
    obtain ⟨v', rfl⟩ := Option.isSome_iff_exists.mp hsome.symm
    exact congrArg some (BitVec.eq_of_toNat_eq hget)

theorem bool_eq_of_toNat_eq {b b' : Bool} (h : b.toNat = b'.toNat) : b = b' := by
  cases b'
  · exact Bool.toNat_eq_zero.mp h
  · exact Bool.toNat_eq_one.mp h

theorem X10Event.word_inj {e e' : X10Event} (h : e.word.toNat = e'.word.toNat) : e = e' := by
  obtain ⟨ho, u, c⟩ := e
  obtain ⟨ho', u', c'⟩ := e'
  simp only [X10Event.toNat_word, ite_eq_mul_toNat, Bool.decide_eq_true] at h
  have hs := u.isSome.toNat_le
  have hs' := u'.isSome.toNat_le
  obtain rfl : ho = ho' := Fin.ext (by omega)
  obtain rfl : c = c' := Cmd.code_inj (by omega)
  obtain rfl : u = u' := unit_inj (bool_eq_of_toNat_eq (by omega)) (by omega)
  rfl

theorem SecState.eq_of_closed_iff {st st' : SecState} (h : decide (st = .closed) = decide (st' = .closed)) :
    st = st' := by
  cases st with
  | opened =>
    cases st' with
    | opened => rfl
    | closed => cases h
  | closed =>
    cases st' with
    | opened => cases h
    | closed => rfl

theorem SecurityEvent.word_inj {e e' : SecurityEvent} (h : e.word.toNat = e'.word.toNat) : e = e' := by
  obtain ⟨⟨⟩, a, st, low, md⟩ := e
  obtain ⟨⟨⟩, a', st', low', md'⟩ := e'
  simp only [SecurityEvent.toNat_word, ite_eq_mul_toNat, Bool.decide_eq_true] at h
  have hst := (decide (st = .closed)).toNat_le
  have hst' := (decide (st' = .closed)).toNat_le
  have hlow := low.toNat_le
  have hlow' := low'.toNat_le
  have hmd := md.toNat_le
  have hmd' := md'.toNat_le
  obtain rfl : a = a' := BitVec.eq_of_toNat_eq (by omega)
  obtain rfl : st = st' := SecState.eq_of_closed_iff (bool_eq_of_toNat_eq (by omega))
  obtain rfl : low = low' := bool_eq_of_toNat_eq (by omega)
  obtain rfl : md = md' := bool_eq_of_toNat_eq (by omega)
  rfl

/-- Bit 15 tells the two variants apart (R77). -/
theorem X10Event.word_lt (e : X10Event) : e.word.toNat < 32768 := by
  rw [X10Event.toNat_word]
  split_ifs <;> omega

theorem SecurityEvent.le_word (e : SecurityEvent) : 32768 ≤ e.word.toNat := by
  rw [SecurityEvent.toNat_word]
  omega

/-- Settles O17: bit 15 names the variant, and each variant's fields do not overlap. -/
theorem eventWordsAreDistinct : Obligations.EventWordsAreDistinct := by
  intro e e' h
  have hnat : e.word.toNat = e'.word.toNat := congrArg BitVec.toNat h
  cases e with
  | x10 a =>
    cases e' with
    | x10 a' => exact congrArg Event.x10 (X10Event.word_inj hnat)
    | security b => exact absurd (hnat ▸ a.word_lt) (Nat.not_lt.mpr b.le_word)
  | security b =>
    cases e' with
    | x10 a => exact absurd (hnat ▸ a.word_lt) (Nat.not_lt.mpr b.le_word)
    | security b' => exact congrArg Event.security (SecurityEvent.word_inj hnat)

/-- Settles O18: an event's kind is 1, and its payload the event word; the other records are constant words. -/
theorem recordWordLayout : Obligations.RecordWordLayout := by
  refine ⟨fun e => ?_, rfl, rfl, rfl, rfl, rfl, rfl, rfl, rfl, rfl⟩
  rw [Record.word, toNat_append_add]
  rfl

end Sys2Proof.Machine
end

section
/-! Words placed for the next step (log 11): the fetch finds them, and uses up no other input. -/

namespace Sys2Proof.Machine

theorem State.fetch_of_no_internal {s : State} {w : StimWord} {ws : List StimWord} (hn : s.nextInternal = none)
    (hw : s.script = w :: ws) : s.fetch = some (.stim w, { s with script := ws }) := by
  simp only [State.fetch, hn, hw]

theorem State.fetch_of_stimulus_chosen {s : State} {k : InternalStep} {w : StimWord} {ws : List StimWord}
    {ts : List Turn} (hn : s.nextInternal = some k) (hw : s.script = w :: ws) (ht : s.sched = .stimulus :: ts) :
    s.fetch = some (.stim w, { s with script := ws, sched := ts }) := by
  simp only [State.fetch, hn, hw, ht]

theorem State.fetch_of_no_stimulus {s : State} {k : InternalStep} (hn : s.nextInternal = some k)
    (hw : s.script = []) : s.fetch = some (s.internalCode k, s) := by
  simp only [State.fetch, hn, hw]

theorem State.fetch_of_internal_chosen {s : State} {k : InternalStep} {ts : List Turn}
    (hn : s.nextInternal = some k) (hw : s.script ≠ []) (ht : s.sched = .internal :: ts) :
    s.fetch = some (s.internalCode k, { s with sched := ts }) := by
  obtain ⟨w, ws, hw⟩ := List.exists_cons_of_ne_nil hw
  simp only [State.fetch, hn, hw, ht]

/-- The placed stimulus is fetched, and the schedule's added choice is used up with it. -/
theorem State.fetch_withStim (s : State) (w : StimWord) : (s.withStim w).fetch = some (.stim w, s) := by
  have hnext : (s.withStim w).nextInternal = s.nextInternal := rfl
  cases hi : s.nextInternal with
  | none =>
    rw [State.fetch_of_no_internal (hnext.trans hi) rfl]
    simp [State.withStim, hi]
  | some k =>
    rw [State.fetch_of_stimulus_chosen (ts := s.sched) (hnext.trans hi) rfl (by simp [State.withStim, hi])]
    rfl

/-- A full window makes the frame completion the enabled internal step, and its code is the frame itself (R164). -/
theorem State.fetch_withFrame (s : State) (w : FrameWord) :
    (s.withFrame w).fetch =
      some (.frame w,
        { s with
          wstate := .wRead, cnt := 4
          fb := ⟨some (frameB0 w), some (frameB1 w), some (frameB2 w), some (frameB3 w)⟩ }) := by
  have hnext : (s.withFrame w).nextInternal = some .frameDone := rfl
  have hcode : (s.withFrame w).internalCode .frameDone = .frame w := congrArg Code.frame (packFrame_bytes w)
  by_cases hs : s.script = []
  · rw [State.fetch_of_no_stimulus hnext hs, hcode]
    simp [State.withFrame, hs]
  · rw [State.fetch_of_internal_chosen (ts := s.sched) hnext hs (by simp [State.withFrame, hs]), hcode]
    rfl

/-- Settles O45: the placed word is what the next step fetches, on the state it was placed in. -/
theorem placedWordRunsNext : Obligations.PlacedWordRunsNext := by
  constructor
  · intro s w
    have hplace : s.withFetchWord 16 w.toNat = s.withStim w := by
      rw [State.withFetchWord, State.placeWord, if_neg (by decide), BitVec.ofNat_toNat, BitVec.setWidth_eq]
    rw [hplace, step, State.fetch_withStim]
  · intro s w
    have hplace : s.withFetchWord 32 w.toNat = s.withFrame w := by
      rw [State.withFetchWord, State.placeWord, if_pos rfl, BitVec.ofNat_toNat, BitVec.setWidth_eq]
    rw [hplace, step, State.fetch_withFrame]

end Sys2Proof.Machine
end

section
/-! The security decoder in numbers (41_security.md R100 to R107), its exclusion of the X10 checksum (R111), and the
renderings at the sink boundary (R108, 42_x10.md R127). -/

namespace Sys2Proof.Machine

theorem toNat_hiNibble (b : Byte) : (hiNibble b).toNat = b.toNat / 16 := by
  rw [hiNibble, BitVec.extractLsb'_toNat, Nat.shiftRight_eq_div_pow]
  omega

theorem toNat_loNibble (b : Byte) : (loNibble b).toNat = b.toNat % 16 := by
  rw [loNibble, BitVec.extractLsb'_toNat, Nat.shiftRight_zero]

theorem hiNibble_eq_iff {b0 b1 : Byte} : hiNibble b0 = hiNibble b1 ↔ b0.toNat / 16 = b1.toNat / 16 := by
  rw [← BitVec.toNat_inj, toNat_hiNibble, toNat_hiNibble]

theorem secMaskOk_iff {b2 : Byte} : secMaskOk b2 = true ↔ b2.toNat &&& 0x7A = 0 := by
  rw [secMaskOk_eq, decide_eq_true_iff, ← BitVec.toNat_inj, BitVec.toNat_and]
  rfl

/-- A frame that fails one of the two tests of R107 gives no report. -/
theorem decodeSecurity_eq_none {src : MinDelaySrc} {b0 b1 b2 b3 : Byte}
    (h : ¬ (hiNibble b0 = hiNibble b1 ∧ secMaskOk b2 = true)) : decodeSecurity src b0 b1 b2 b3 = none := by
  by_cases hc : hiNibble b0 = hiNibble b1
  · have hm : secMaskOk b2 = false := Bool.eq_false_iff.mpr fun hm => h ⟨hc, hm⟩
    simp [decodeSecurity, hm]
  · simp [decodeSecurity, cand_eq, hc]

/-- The address as a number: the low nibble of `b0` is the high digit (R102). -/
theorem loNibble_append_loNibble (b0 b1 : Byte) :
    loNibble b0 ++ loNibble b1 = BitVec.ofNat 8 (b0.toNat % 16 * 16 + b1.toNat % 16) := by
  have h : (loNibble b0 ++ loNibble b1 : Byte).toNat = b0.toNat % 16 * 16 + b1.toNat % 16 := by
    simp only [toNat_append_add, toNat_loNibble, Nat.reducePow]
  rw [← h, BitVec.ofNat_toNat, BitVec.setWidth_eq]

/-- A bit of a byte is a binary digit of its number. -/
theorem getLsbD_eq_decide (b : Byte) (i : Nat) : b.getLsbD i = decide (b.toNat / 2 ^ i % 2 = 1) := by
  rw [← BitVec.testBit_toNat, Nat.testBit_eq_decide_div_mod_eq]

theorem secState_eq_ite (b2 : Byte) : secState b2 = if 128 ≤ b2.toNat then .closed else .opened := by
  have hbit : b2.toNat / 2 ^ 7 % 2 = 1 ↔ 128 ≤ b2.toNat := by omega
  simp only [secState, getLsbD_eq_decide, hbit, decide_eq_true_eq]

theorem secLowBattery_eq_decide (b2 : Byte) : secLowBattery b2 = decide (b2.toNat % 2 = 1) := by
  rw [secLowBattery, getLsbD_eq_decide, pow_zero, Nat.div_one]

/-- The test of R104 on either byte: bit 4 is 0. -/
theorem not_getLsbD_four (b : Byte) : (!b.getLsbD 4) = decide (b.toNat / 16 % 2 = 0) := by
  rw [getLsbD_eq_decide, ← decide_not, decide_eq_decide]
  exact Nat.mod_two_ne_one

/-- Settles O1: the two tests of R107 decide between a report and none, and each field has its own rule in numbers. -/
theorem securityDecoderFields : Obligations.SecurityDecoderFields := by
  intro src b0 b1 b2 b3
  split
  case isTrue haccept =>
    obtain ⟨hc, hm⟩ := haccept
    rw [decodeSecurity_of_cand (hiNibble_eq_iff.mpr hc) (secMaskOk_iff.mpr hm), loNibble_append_loNibble,
      secState_eq_ite, secLowBattery_eq_decide]
    cases src <;> simp only [secMinDelay, not_getLsbD_four, secDeviceType]
  case isFalse hreject =>
    rw [← hiNibble_eq_iff, ← secMaskOk_iff] at hreject
    exact decodeSecurity_eq_none hreject

/-- Settles O2: the first checksum pair makes `b1` the complement of `b0`, whose class nibble differs (R111). -/
theorem candidateNeverChecksumValid : Obligations.CandidateNeverChecksumValid := by
  intro b0 b1 b2 b3 hcand
  have hc : hiNibble b0 = hiNibble b1 := of_decide_eq_true (cand_eq b0 b1 ▸ hcand)
  rw [← Bool.not_eq_true, ck_iff]
  rintro ⟨rfl, -⟩
  exact hiNibble_ne_complement b0 hc

/-- A digit's ASCII code from its value (R108). -/
theorem hexDigit_eq_ite (v : Nibble) :
    hexDigit v =
      if v.toNat ≤ 9 then BitVec.ofNat 8 (0x30 + v.toNat) else BitVec.ofNat 8 (0x61 + (v.toNat - 10)) := by
  revert v; decide

theorem toNat_renderHouse (h : Fin 16) : (renderHouse h).toNat = 0x41 + h.val := by
  rw [renderHouse, BitVec.toNat_add, BitVec.toNat_ofNat, BitVec.toNat_ofNat]
  omega

/-- Settles O19: the two characters of an address are its nibbles' digits, and the house letters count from 'A'. -/
theorem sinkRenderings : Obligations.SinkRenderings := by
  refine ⟨fun a => ?_, toNat_renderHouse⟩
  rw [renderAddress, hexDigit_eq_ite, hexDigit_eq_ite, toNat_hiNibble, toNat_loNibble]

end Sys2Proof.Machine
end

section
/-! The X10 decoder (42_x10.md): the exact checksum sums (R120), the bit reversal (R121), the house-code ROM (R122, R123),
the exact unit adder (R124), the command resolution (R125), and what these give for every X10 event (R128, R129). -/

namespace Sys2Proof.Machine

/-- A pair of bytes sums to 255 exactly when they are complements (R120). -/
theorem toNat_add_eq_255_iff {x y : Byte} : x.toNat + y.toNat = 255 ↔ y = ~~~x := by
  have hx : x.toNat < 256 := x.isLt
  rw [← BitVec.toNat_inj, BitVec.toNat_not]
  omega

/-- Settles O3: both forms say that each byte is the complement of its pair. -/
theorem checksumIsComplementPair : Obligations.ChecksumIsComplementPair := by
  intro b0 b1 b2 b3
  refine ⟨?_, ck_iff b0 b1 b2 b3⟩
  rw [toNat_add_eq_255_iff, toNat_add_eq_255_iff]
  exact ck_iff b0 b1 b2 b3

@[simp] theorem rev8_rev8 (v : Byte) : rev8 (rev8 v) = v := by
  apply BitVec.eq_of_getLsbD_eq
  intro k hk
  have hback : 7 - (7 - k) = k := by omega
  calc (rev8 (rev8 v)).getLsbD k
      = (rev8 v).getLsbD (7 - k) := rev8_getLsbD (rev8 v) ⟨k, hk⟩
    _ = v.getLsbD (7 - (7 - k)) := rev8_getLsbD v ⟨7 - k, by omega⟩
    _ = v.getLsbD k := by rw [hback]

/-- Settles O4: the reversal of bit positions is its own inverse. -/
theorem rev8ReversesBits : Obligations.Rev8ReversesBits :=
  ⟨rev8_getLsbD, rev8_rev8⟩

/-- The ROM index is the low nibble of the reversed byte (R123). -/
theorem house_eq (b0 : Byte) : house b0 = memReadHcLut (loNibble (rev8 b0)) := by
  have hmask : ∀ r : Byte, (r &&& 0x0F#8).setWidth 4 = loNibble r := by decide
  rw [house, hmask]

/-- The low nibble of the reversal comes from the high nibble alone. -/
theorem loNibble_rev8_append (h l : Nibble) : loNibble (rev8 (h ++ l)) = loNibble (rev8 (h ++ 0#4)) := by
  have hbit : ∀ (l : Nibble) (k : Nat), k < 4 → (loNibble (rev8 (h ++ l))).getLsbD k = h.getLsbD (3 - k) := by
    intro l k hk
    have hhigh : ¬ 7 - k < 4 := by omega
    have hidx : 7 - k - 4 = 3 - k := by omega
    rw [loNibble, BitVec.getLsbD_extractLsb', decide_eq_true hk, Bool.true_and, Nat.zero_add,
      rev8_getLsbD (h ++ l) ⟨k, by omega⟩, BitVec.getLsbD_append, if_neg hhigh, hidx]
  apply BitVec.eq_of_getLsbD_eq
  intro k hk
  rw [hbit l k hk, hbit 0#4 k hk]

/-- The high nibble alone selects the house code (R123). -/
theorem house_append (h l : Nibble) : house (h ++ l) = house (h ++ 0#4) := by
  rw [house_eq, loNibble_rev8_append, ← house_eq]

theorem memReadHcLut_injective : ∀ i j : Nibble, memReadHcLut i = memReadHcLut j → i = j := by
  decide

theorem memReadHcLut_surjective : ∀ l : Fin 16, ∃ i : Nibble, memReadHcLut i = l := by
  decide

/-- Settles O5: the sixteen entries are read off; the letters need the sixteen high nibbles only. -/
theorem houseLettersByHighNibble : Obligations.HouseLettersByHighNibble := by
  refine ⟨by decide, house_eq, fun b0 => ?letters, fun l => ?permutation⟩
  case letters =>
    have hletters : ∀ h : Nibble, (house (h ++ 0#4)).val =
        [12, 13, 14, 15, 2, 3, 0, 1, 4, 5, 6, 7, 10, 11, 8, 9].getD h.toNat 16 := by decide
    rw [← toNat_hiNibble, ← hletters, ← house_append _ (loNibble b0), nibbles_append]
  case permutation =>
    obtain ⟨i, rfl⟩ := memReadHcLut_surjective l
    exact ⟨i, rfl, fun j => memReadHcLut_injective j i⟩

/-- The adder's two masked operands are single bits moved to the weights 4 and 8 (R124). -/
theorem unitBase_eq (r0 r2 : Byte) :
    unitBase r0 r2 =
      (r2 >>> 3).setWidth 6 + (if r2.getLsbD 1 then 4#6 else 0#6) + (if r0.getLsbD 5 then 8#6 else 0#6) + 1#6 := by
  have h1 : r2 &&& 0x02#8 = if r2.getLsbD 1 then 0x02#8 else 0#8 := BitVec.and_twoPow r2 1
  have h5 : r0 &&& 0x20#8 = if r0.getLsbD 5 then 0x20#8 else 0#8 := BitVec.and_twoPow r0 5
  rw [unitBase, h1, h5]
  cases r2.getLsbD 1 <;> cases r0.getLsbD 5 <;> rfl

/-- The adder is exact: no partial sum reaches 64 (R124). -/
theorem toNat_unitBase (r0 r2 : Byte) :
    (unitBase r0 r2).toNat =
      r2.toNat / 8 + (if r2.getLsbD 1 then 4 else 0) + (if r0.getLsbD 5 then 8 else 0) + 1 := by
  have hfield : ((r2 >>> 3).setWidth 6).toNat = r2.toNat / 8 := by
    rw [BitVec.toNat_setWidth, BitVec.toNat_ushiftRight, Nat.shiftRight_eq_div_pow]
    omega
  rw [unitBase_eq]
  simp only [BitVec.toNat_add, hfield, apply_ite BitVec.toNat, BitVec.toNat_ofNat]
  split_ifs <;> omega

theorem unitBase_range (r0 r2 : Byte) : 1 ≤ (unitBase r0 r2).toNat ∧ (unitBase r0 r2).toNat ≤ 44 := by
  rw [toNat_unitBase]
  split_ifs <;> omega

/-- Settles O6: the exact sum bounds the unit, since its first term is at most 31. -/
theorem unitAdderIsExact : Obligations.UnitAdderIsExact :=
  fun r0 r2 => ⟨toNat_unitBase r0 r2, unitBase_range r0 r2⟩

/-- What the command resolution can answer: On or Off, with the adder's unit or, for 0x11 alone, the next one (R125). -/
theorem command_eq_ok {r2 : Byte} {u v : UnitField} {c : Cmd} (h : command r2 u = .ok (c, v)) :
    (c = .on ∨ c = .off) ∧ (v = u ∨ r2 = 0x11#8 ∧ v = u + 1#6) := by
  unfold command at h
  split_ifs at h with h19 h11 hoff hon
  all_goals cases h
  · exact ⟨.inr rfl, .inl rfl⟩
  · exact ⟨.inl rfl, .inr ⟨h11, rfl⟩⟩
  · exact ⟨.inr rfl, .inl rfl⟩
  · exact ⟨.inl rfl, .inl rfl⟩

/-- The incremented unit stays in the range: the adder gives 3 or 11 for 0x11 (R124). -/
theorem unitBase_0x11_add_one_range (r0 : Byte) :
    1 ≤ (unitBase r0 0x11#8 + 1#6).toNat ∧ (unitBase r0 0x11#8 + 1#6).toNat ≤ 44 := by
  have h : (unitBase r0 0x11#8).toNat = 2 + 0 + (if r0.getLsbD 5 then 8 else 0) + 1 := toNat_unitBase r0 0x11#8
  rw [BitVec.toNat_add, h]
  split_ifs <;> decide

theorem command_unit_range {r0 r2 : Byte} {u : UnitField} {c : Cmd} (h : command r2 (unitBase r0 r2) = .ok (c, u)) :
    1 ≤ u.toNat ∧ u.toNat ≤ 44 := by
  obtain ⟨-, rfl | ⟨rfl, rfl⟩⟩ := command_eq_ok h
  · exact unitBase_range r0 r2
  · exact unitBase_0x11_add_one_range r0

theorem decodeX10_of_not_ck {b0 b1 b2 b3 : Byte} (hck : ck b0 b1 b2 b3 = false) :
    decodeX10 b0 b1 b2 b3 = .error .checksum := by
  simp [decodeX10, hck]

theorem decodeX10_of_command_ok {b0 b1 b2 b3 : Byte} {c : Cmd} {u : UnitField} (hck : ck b0 b1 b2 b3 = true)
    (h : command (rev8 b2) (unitBase (rev8 b0) (rev8 b2)) = .ok (c, u)) :
    decodeX10 b0 b1 b2 b3 = .ok { house := house b0, unit := some u, cmd := c } := by
  simp [decodeX10, hck, h]

theorem decodeX10_of_command_error {b0 b1 b2 b3 : Byte} {r : InvalidReason} (hck : ck b0 b1 b2 b3 = true)
    (h : command (rev8 b2) (unitBase (rev8 b0) (rev8 b2)) = .error r) : decodeX10 b0 b1 b2 b3 = .error r := by
  simp [decodeX10, hck, h]

/-- An event of the X10 decoder is the answer of the command resolution (R126). -/
theorem decodeX10_eq_ok {b0 b1 b2 b3 : Byte} {e : X10Event} (h : decodeX10 b0 b1 b2 b3 = .ok e) :
    ∃ u, e.unit = some u ∧ command (rev8 b2) (unitBase (rev8 b0) (rev8 b2)) = .ok (e.cmd, u) := by
  have hck : ck b0 b1 b2 b3 = true := by
    by_contra hbad
    rw [decodeX10_of_not_ck (Bool.eq_false_iff.mpr hbad)] at h
    cases h
  cases hcmd : command (rev8 b2) (unitBase (rev8 b0) (rev8 b2)) with
  | error r =>
    rw [decodeX10_of_command_error hck hcmd] at h
    cases h
  | ok cu =>
    rw [decodeX10_of_command_ok hck hcmd] at h
    cases h
    exact ⟨cu.2, rfl, rfl⟩

/-- Settles O7: the checksum holds, and each branch of the command resolution in raw bits is one of the decoder. -/
theorem x10CommandByRawBits : Obligations.X10CommandByRawBits := by
  intro b0 b2
  have hck : ck b0 (~~~b0) b2 (~~~b2) = true := (ck_iff _ _ _ _).mpr ⟨rfl, rfl⟩
  have hcmd := command_rev8 b2 (unitBase (rev8 b0) (rev8 b2))
  split_ifs at hcmd ⊢ with h98 h88 h7 h5
  · exact decodeX10_of_command_ok hck hcmd
  · exact decodeX10_of_command_ok hck hcmd
  · exact decodeX10_of_command_error hck hcmd
  · exact decodeX10_of_command_ok hck hcmd
  · exact decodeX10_of_command_ok hck hcmd

/-- An X10 event of the router is one of the X10 decoder (R150). -/
theorem decodeX10_of_route {src : MinDelaySrc} {b0 b1 b2 b3 : Byte} {e : X10Event}
    (h : route src b0 b1 b2 b3 = .ok (.x10 e)) : decodeX10 b0 b1 b2 b3 = .ok e := by
  cases hs : decodeSecurity src b0 b1 b2 b3 with
  | some a => simp [route, hs] at h
  | none =>
    cases hx : decodeX10 b0 b1 b2 b3 with
    | error r => simp [route, hs, hx] at h
    | ok a => simpa [route, hs, hx] using h

/-- Settles O8: the event's command and unit are the command resolution's. -/
theorem x10EventsAreOnOrOffWithUnit : Obligations.X10EventsAreOnOrOffWithUnit := by
  intro src b0 b1 b2 b3 e h
  obtain ⟨u, hu, hcmd⟩ := decodeX10_eq_ok (decodeX10_of_route h)
  obtain ⟨hc, -⟩ := command_eq_ok hcmd
  exact ⟨hc, u, hu, command_unit_range hcmd⟩

end Sys2Proof.Machine
end

section
/-! The router (43_router.md): its answer from those of the two decoders (R150), and what a drop code says of the frame
(R151). -/

namespace Sys2Proof.Machine

section Decoders
variable {src : MinDelaySrc} {b0 b1 b2 b3 : Byte}

theorem route_of_security {a : SecurityEvent} (hs : decodeSecurity src b0 b1 b2 b3 = some a) :
    route src b0 b1 b2 b3 = .ok (.security a) := by
  rw [route, hs]

theorem route_of_x10 {x : X10Event} (hs : decodeSecurity src b0 b1 b2 b3 = none)
    (hx : decodeX10 b0 b1 b2 b3 = .ok x) : route src b0 b1 b2 b3 = .ok (.x10 x) := by
  rw [route, hs, hx]

theorem route_of_invalid {r : InvalidReason} (hs : decodeSecurity src b0 b1 b2 b3 = none)
    (hx : decodeX10 b0 b1 b2 b3 = .error r) : route src b0 b1 b2 b3 = .error (dropCode b0 b1 b2 r) := by
  rw [route, hs, hx]

theorem route_eq_security_iff {e : SecurityEvent} :
    route src b0 b1 b2 b3 = .ok (.security e) ↔ decodeSecurity src b0 b1 b2 b3 = some e := by
  refine ⟨fun h => ?_, route_of_security⟩
  cases hs : decodeSecurity src b0 b1 b2 b3 with
  | some a =>
    rw [route_of_security hs] at h
    cases h
    rfl
  | none =>
    cases hx : decodeX10 b0 b1 b2 b3 with
    | ok x => cases (route_of_x10 hs hx).symm.trans h
    | error r => cases (route_of_invalid hs hx).symm.trans h

/-- A frame that gets another answer than a report is none for the security decoder. -/
theorem decodeSecurity_eq_none_of_route {a : Except DiagCode Event} (h : route src b0 b1 b2 b3 = a)
    (ha : ∀ e, a ≠ .ok (.security e)) : decodeSecurity src b0 b1 b2 b3 = none :=
  Option.eq_none_iff_forall_ne_some.mpr fun e hs => ha e (h ▸ route_of_security hs)

theorem route_eq_x10_iff {e : X10Event} :
    route src b0 b1 b2 b3 = .ok (.x10 e) ↔
      decodeSecurity src b0 b1 b2 b3 = none ∧ decodeX10 b0 b1 b2 b3 = .ok e :=
  ⟨fun h => ⟨decodeSecurity_eq_none_of_route h nofun, decodeX10_of_route h⟩,
    fun ⟨hs, hx⟩ => route_of_x10 hs hx⟩

theorem route_eq_drop_iff {c : DiagCode} :
    route src b0 b1 b2 b3 = .error c ↔
      decodeSecurity src b0 b1 b2 b3 = none ∧
        ∃ r, decodeX10 b0 b1 b2 b3 = .error r ∧ c = dropCode b0 b1 b2 r := by
  constructor
  · intro h
    have hs : decodeSecurity src b0 b1 b2 b3 = none := decodeSecurity_eq_none_of_route h nofun
    cases hx : decodeX10 b0 b1 b2 b3 with
    | ok x => cases (route_of_x10 hs hx).symm.trans h
    | error r =>
      rw [route_of_invalid hs hx] at h
      cases h
      exact ⟨hs, r, rfl, rfl⟩
  · rintro ⟨hs, r, hx, rfl⟩
    exact route_of_invalid hs hx

/-- The X10 decoder tests the checksum before everything else (R126). -/
theorem ck_of_decodeX10_ok {e : X10Event} (h : decodeX10 b0 b1 b2 b3 = .ok e) : ck b0 b1 b2 b3 = true := by
  by_contra hbad
  cases (decodeX10_of_not_ck (Bool.eq_false_iff.mpr hbad)).symm.trans h

end Decoders

/-- Settles O9: the nested match of R150 inverted, and a candidate's checksum fails (R111). -/
theorem routerTriesSecurityFirst : Obligations.RouterTriesSecurityFirst := by
  intro src b0 b1 b2 b3
  refine ⟨fun _ => route_eq_security_iff, fun _ => route_eq_x10_iff, fun _ => route_eq_drop_iff, fun e h => ?_⟩
  have hck : ck b0 b1 b2 b3 = true := ck_of_decodeX10_ok (decodeX10_of_route h)
  rw [← Bool.not_eq_true]
  intro hcand
  cases (candidateNeverChecksumValid b0 b1 b2 b3 hcand).symm.trans hck

/-- The cause that each drop code names, in the bytes of the frame (R74 rows 2, 3 and 8). -/
inductive DropCause (b0 b1 b2 b3 : Byte) : DiagCode → Prop where
  | secMask (hc : hiNibble b0 = hiNibble b1) (hm : b2 &&& 0x7A#8 ≠ 0#8) : DropCause b0 b1 b2 b3 .dropSecMask
  | checksum (hc : hiNibble b0 ≠ hiNibble b1) (hk : ¬ (b1 = ~~~b0 ∧ b3 = ~~~b2)) :
      DropCause b0 b1 b2 b3 .dropChecksum
  | unsupportedCmd (hk : b1 = ~~~b0 ∧ b3 = ~~~b2) (h7 : b2.getLsbD 7 = true) (h98 : b2 ≠ 0x98#8)
      (h88 : b2 ≠ 0x88#8) : DropCause b0 b1 b2 b3 .dropUnsupportedCmd

/-- The command resolution rejects the function bytes with bit 7 set, other than the two corner cases (R125). -/
theorem command_rev8_eq_error_iff {b2 : Byte} {u : UnitField} {r : InvalidReason} :
    command (rev8 b2) u = .error r ↔
      r = .unsupportedCmd ∧ b2.getLsbD 7 = true ∧ b2 ≠ 0x98#8 ∧ b2 ≠ 0x88#8 := by
  rw [command_rev8]
  split_ifs with h98 h88 h7 h5
  · exact ⟨nofun, fun ⟨_, _, hne, _⟩ => absurd h98 hne⟩
  · exact ⟨nofun, fun ⟨_, _, _, hne⟩ => absurd h88 hne⟩
  · constructor
    · rintro ⟨⟩
      exact ⟨rfl, h7, h98, h88⟩
    · rintro ⟨rfl, -⟩
      rfl
  all_goals exact ⟨nofun, fun ⟨_, hbit, _⟩ => absurd hbit h7⟩

/-- The router drops a frame with a code exactly for the cause that the code names. -/
theorem route_eq_error_iff_dropCause {src : MinDelaySrc} {b0 b1 b2 b3 : Byte} {c : DiagCode} :
    route src b0 b1 b2 b3 = .error c ↔ DropCause b0 b1 b2 b3 c := by
  constructor
  · intro h
    by_cases hc : hiNibble b0 = hiNibble b1
    · by_cases hm : b2 &&& 0x7A#8 = 0#8
      · cases (route_secWord (packFrame_eq_secWord hc hm)).symm.trans h
      · cases (route_secMask hc hm).symm.trans h
        exact .secMask hc hm
    · by_cases hk : b1 = ~~~b0 ∧ b3 = ~~~b2
      · obtain ⟨h1, h3⟩ := hk
        cases hcmd : command (rev8 b2) (unitBase (rev8 b0) (rev8 b2)) with
        | ok cu => cases (route_x10 h1 h3 hcmd).symm.trans h
        | error r =>
          obtain ⟨rfl, h7, h98, h88⟩ := command_rev8_eq_error_iff.mp hcmd
          cases (route_unsupported h1 h3 hcmd).symm.trans h
          exact .unsupportedCmd ⟨h1, h3⟩ h7 h98 h88
      · cases (route_checksum hc hk).symm.trans h
        exact .checksum hc hk
  · rintro (⟨hc, hm⟩ | ⟨hc, hk⟩ | ⟨⟨h1, h3⟩, h7, h98, h88⟩)
    · exact route_secMask hc hm
    · exact route_checksum hc hk
    · exact route_unsupported h1 h3 (command_rev8_eq_error_iff.mpr ⟨rfl, h7, h98, h88⟩)

/-- Settles O10: each of the three codes has one cause, and the fatal error's code has none. -/
theorem dropCodeNamesTheCause : Obligations.DropCodeNamesTheCause := by
  intro src b0 b1 b2 b3
  simp only [ne_eq, route_eq_error_iff_dropCause]
  refine ⟨?secMask, ?checksum, ?unsupportedCmd, nofun⟩
  case secMask => exact ⟨fun (.secMask hc hm) => ⟨hc, hm⟩, fun ⟨hc, hm⟩ => .secMask hc hm⟩
  case checksum => exact ⟨fun (.checksum hc hk) => ⟨hc, hk⟩, fun ⟨hc, hk⟩ => .checksum hc hk⟩
  case unsupportedCmd =>
    exact ⟨fun (.unsupportedCmd hk h7 h98 h88) => ⟨hk, h7, h98, h88⟩,
      fun ⟨hk, h7, h98, h88⟩ => .unsupportedCmd hk h7 h98 h88⟩

end Sys2Proof.Machine
end

section
/-! The enabled internal step and the code a step fetches (44_acquisition.md R161 to R164, R172, 45_lifecycle.md R198):
at most one guard holds, `nextInternal` names its step, and a step runs it unless the schedule chooses the stimulus. -/

namespace Sys2Proof.Machine

/-- The one internal step that the worker's position, its window and `running` leave open. -/
def State.openInternal (s : State) : Option InternalStep :=
  match s.wstate with
  | .wNone => some .joinDone
  | .wCheck => some (if s.running then .loopTestRun else .loopTestExit)
  | .wRead => some (if s.cnt = 4 then .frameDone else .byteTake)
  | .wEmit => none

/-- Each guard fixes the position that leaves its step open (R161 to R164, R198). -/
theorem State.openInternal_of_enabled {s : State} {j : InternalStep} (h : enabled (decode (.internal j)) s = true) :
    s.openInternal = some j := by
  unfold State.openInternal
  cases j with
  | loopTestRun =>
    obtain ⟨hw, hr⟩ := State.canLoopRun_iff.mp h
    simp [hw, hr]
  | loopTestExit =>
    obtain ⟨hw, hr⟩ := State.canLoopExit_iff.mp h
    simp [hw, hr]
  | byteTake =>
    obtain ⟨hw, hc, -⟩ := State.canByteTake_iff.mp h
    simp [hw, hc.ne]
  | frameDone =>
    obtain ⟨hw, hc⟩ := State.canFrameDone_iff.mp h
    simp [hw, hc]
  | joinDone =>
    obtain ⟨-, -, hw⟩ := State.canJoinDone_iff.mp h
    simp [hw]

/-- The guards of the internal steps exclude each other. -/
theorem enabled_internal_unique {s : State} {j k : InternalStep} (hj : enabled (decode (.internal j)) s = true)
    (hk : enabled (decode (.internal k)) s = true) : k = j :=
  Option.some.inj ((State.openInternal_of_enabled hk).symm.trans (State.openInternal_of_enabled hj))

/-- The internal step taken next is one whose guard holds; with none taken, no guard holds. -/
theorem State.nextInternal_enabled (s : State) :
    (∃ k, s.nextInternal = some k ∧ enabled (decode (.internal k)) s = true) ∨
      ∀ k, enabled (decode (.internal k)) s = false := by
  rcases s.nextInternal_cases with h | h | h | h | h | ⟨-, hframe, hbyte, hrun, hexit, hjoin⟩
  · exact .inl ⟨.frameDone, h⟩
  · exact .inl ⟨.byteTake, h⟩
  · exact .inl ⟨.loopTestRun, h⟩
  · exact .inl ⟨.loopTestExit, h⟩
  · exact .inl ⟨.joinDone, h⟩
  · right
    intro k
    cases k with
    | loopTestRun => exact hrun
    | loopTestExit => exact hexit
    | byteTake => exact hbyte
    | frameDone => exact hframe
    | joinDone => exact hjoin

theorem State.nextInternal_of_enabled {s : State} {j : InternalStep} (h : enabled (decode (.internal j)) s = true) :
    s.nextInternal = some j := by
  rcases s.nextInternal_enabled with ⟨k, hk, hg⟩ | hnone
  · rw [hk, enabled_internal_unique h hg]
  · simp [hnone j] at h

theorem State.fetch_of_no_choice {s : State} {k : InternalStep} (hn : s.nextInternal = some k)
    (hs : s.script = [] ∨ s.sched = []) : s.fetch = some (s.internalCode k, s) := by
  by_cases hw : s.script = []
  · exact State.fetch_of_no_stimulus hn hw
  · obtain ⟨w, ws, hw'⟩ := List.exists_cons_of_ne_nil hw
    simp only [State.fetch, hn, hw', hs.resolve_left hw]

/-- A full window's completion is fetched as the frame itself (R164). -/
theorem State.internalCode_frameDone {s : State} {b0 b1 b2 b3 : Byte}
    (hfb : s.fb = ⟨some b0, some b1, some b2, some b3⟩) :
    s.internalCode .frameDone = .frame (packFrame b0 b1 b2 b3) := by
  simp only [State.internalCode, FrameBuffer.bytes, hfb]

theorem State.internalCode_of_ne {s : State} {k : InternalStep} (hk : k ≠ .frameDone) :
    s.internalCode k = .internal k := by
  cases k with
  | frameDone => exact absurd rfl hk
  | loopTestRun | loopTestExit | byteTake | joinDone => rfl

theorem step_of_fetch {s t : State} {c : Code} (h : s.fetch = some (c, t)) : step s = exec (decode c) t := by
  simp only [step, h]

/-- A step takes the enabled internal step where no stimulus waits, where there is no choice left (R172), and where the
choice is for it. -/
theorem step_of_nextInternal {s : State} {k : InternalStep} (hn : s.nextInternal = some k) :
    (s.script = [] ∨ s.sched = [] → step s = exec (decode (s.internalCode k)) s) ∧
      ∀ ts, s.script ≠ [] → s.sched = .internal :: ts →
        step s = exec (decode (s.internalCode k)) { s with sched := ts } :=
  ⟨fun hs => step_of_fetch (State.fetch_of_no_choice hn hs),
    fun _ hw ht => step_of_fetch (State.fetch_of_internal_chosen hn hw ht)⟩

theorem step_of_stimulus_chosen {s : State} {k : InternalStep} {w : StimWord} {ws : List StimWord} {ts : List Turn}
    (hn : s.nextInternal = some k) (hw : s.script = w :: ws) (ht : s.sched = .stimulus :: ts) :
    step s = exec (decode (.stim w)) { s with script := ws, sched := ts } :=
  step_of_fetch (State.fetch_of_stimulus_chosen hn hw ht)

/-- A frame completion does the same whether it runs as FRAME_DONE or as its frame's class (R150, R164): a cell with no
value leaves it FRAME_DONE, and a full buffer is routed alike. -/
theorem exec_internalCode {s : State} {k : InternalStep} (hg : enabled (decode (.internal k)) s = true) :
    exec (decode (s.internalCode k)) s = exec (decode (.internal k)) s := by
  by_cases hk : k = .frameDone
  · subst hk
    cases hb : s.fb.bytes with
    | none => simp only [State.internalCode, hb]
    | some bs =>
      obtain ⟨b0, b1, b2, b3⟩ := bs
      obtain ⟨hw, hc⟩ := State.canFrameDone_iff.mp hg
      have hfb := FrameBuffer.bytes_eq_some.mp hb
      obtain ⟨hclass, -⟩ := frameDoneRunsFrameClass s b0 b1 b2 b3 hfb hw hc
      rw [State.internalCode_frameDone hfb]
      exact hclass.symm
  · rw [State.internalCode_of_ne hk]

/-- Settles O44: the worker's position leaves one internal step open, and a step runs its code, which does what the
internal step does. -/
theorem oneInternalStepAtMost : Obligations.OneInternalStepAtMost := by
  intro s j hj
  have hn := State.nextInternal_of_enabled hj
  obtain ⟨hfree, hchosen⟩ := step_of_nextInternal hn
  refine ⟨hn, fun k hk => enabled_internal_unique hj hk, fun hs => ?_, fun ts hw ht => ?_, fun w ws ts hw ht => ?_⟩
  · exact (hfree hs).trans (exec_internalCode hj)
  · exact (hchosen ts hw ht).trans (exec_internalCode (s := { s with sched := ts }) hj)
  · exact step_of_stimulus_chosen hn hw ht

/-- Settles O42: each clause is a way to fetch, and a step runs what it fetches. -/
theorem stepRunsDecodedInstruction : Obligations.StepRunsDecodedInstruction := by
  refine ⟨fun s c t => step_of_fetch, ?stimulus, ?chosenStimulus, ?frame, ?internal⟩
  case stimulus => exact fun s w ws hn hw => step_of_fetch (State.fetch_of_no_internal hn hw)
  case chosenStimulus =>
    intro s w ws ts hw hn ht
    obtain ⟨k, hk⟩ := Option.ne_none_iff_exists'.mp hn
    exact step_of_stimulus_chosen hk hw ht
  case frame =>
    intro s b0 b1 b2 b3 hw hc hfb
    have hn : s.nextInternal = some .frameDone :=
      State.nextInternal_of_enabled (State.canFrameDone_iff.mpr ⟨hw, hc⟩)
    exact State.internalCode_frameDone hfb ▸ step_of_nextInternal hn
  case internal =>
    intro s k hn hk
    exact State.internalCode_of_ne hk ▸ step_of_nextInternal hn

end Sys2Proof.Machine
end

section
/-! The acquisition loop's instructions (44_acquisition.md R160 to R167): the whole effect under the guard, and no step
outside it. -/

namespace Sys2Proof.Machine

/-- A guarded instruction, with its guard said as a proposition. -/
theorem guarded_spec {m : String} {g : Bool} {t : State} {p : Prop} (h : g = true ↔ p) :
    (p → guarded m g t = .next t) ∧ (¬ p → guarded m g t = .refused (.notEnabled m)) :=
  ⟨fun hp => guarded_of (h.mpr hp), fun hp => guarded_of_not (Bool.eq_false_of_not_eq_true (mt h.mp hp))⟩

/-- Settles O21: the receiver's two cases, of which the guard of R160 picks one. -/
theorem receiverQueuesOrLosesByte : Obligations.ReceiverQueuesOrLosesByte := by
  intro b s
  refine congrArg Host.Outcome.next ?_
  obtain ⟨hopen, hroom, ht⟩ | ⟨hlost, ht⟩ := s.receive_cases b
  · rw [ht, if_pos ⟨hopen, hroom⟩, State.qPush]
  · rw [ht, if_neg]
    rintro ⟨hopen, hroom⟩
    rcases hlost with hshut | hfull
    · simp [hshut] at hopen
    · exact absurd hroom (Nat.not_lt.mpr hfull)

/-- Settles O22: the window is cleared and opened under the guard of R161. -/
theorem loopTestRunOpensWindow : Obligations.LoopTestRunOpensWindow :=
  fun _ => guarded_spec State.canLoopRun_iff

/-- Settles O23: the worker goes under the guard of R162. -/
theorem loopTestExitEndsWorker : Obligations.LoopTestExitEndsWorker :=
  fun _ => guarded_spec State.canLoopExit_iff

/-- Settles O27: the window is cleared under the guard of R165, which the number of bytes in it decides. -/
theorem windowExpiryDiscardsPartialFrame : Obligations.WindowExpiryDiscardsPartialFrame :=
  fun _ => guarded_spec State.canExp_iff

/-- Settles O28: the sink's return under the guard of R166. -/
theorem sinkAckFreesWorker : Obligations.SinkAckFreesWorker :=
  fun _ => guarded_spec State.canAck_iff

/-- Settles O29: the fatal path as one update, under the guard of R167. -/
theorem ioErrorFatalPath : Obligations.IoErrorFatalPath := by
  intro s
  obtain ⟨hfatal, hrefuse⟩ := guarded_spec (m := "IOERR") (t := s.takeFatal) (State.canIoerr_iff (s := s))
  exact ⟨fun h => (hfatal h).trans (congrArg Host.Outcome.next s.takeFatal_eq), hrefuse⟩

/-- A put writes the cell of its index and no other (R163). -/
theorem FrameBuffer.put_eq (f : FrameBuffer) (i : Fin 5) (b : Byte) :
    f.put i b =
      ⟨if i.val = 0 then some b else f.c0, if i.val = 1 then some b else f.c1,
        if i.val = 2 then some b else f.c2, if i.val = 3 then some b else f.c3⟩ := by
  fin_cases i <;> rfl

/-- Settles O24: the head goes into the cell of `cnt` under the guard of R163, whose negation is one of three causes. -/
theorem byteTakeMovesQueueHead : Obligations.ByteTakeMovesQueueHead := by
  intro s
  obtain ⟨htake, hrefuse⟩ := guarded_spec (m := "BYTE_TAKE") (t := s.takeByte) (State.canByteTake_iff (s := s))
  constructor
  · intro b rest hw hc hq
    rw [← FrameBuffer.put_eq, ← State.takeByte_cons hq]
    exact htake ⟨hw, hc, by simp [hq]⟩
  · intro hout
    refine hrefuse ?_
    rintro ⟨hw, hc, hq⟩
    rcases hout with hout | hout | hout
    · exact hout hw
    · exact absurd hout (Nat.ne_of_lt hc)
    · exact hq hout

/-- Settles O25: FRAME_DONE ends as the router's answer says. -/
theorem frameDoneRoutesFrame : Obligations.FrameDoneRoutesFrame := by
  intro s b0 b1 b2 b3 hfb hw hc
  have hdone : exec .frameDone s = .next (s.finishFrame (route s.cfg.minDelaySrc b0 b1 b2 b3)) :=
    execFrameDone_next.mpr ⟨b0, b1, b2, b3, hfb, State.canFrameDone_iff.mpr ⟨hw, hc⟩, rfl⟩
  constructor
  · intro e hr
    rw [hdone, hr]
    rfl
  · intro c hr
    rw [hdone, hr]
    rfl

end Sys2Proof.Machine
end

section
/-! What the acquisition loop keeps (44_acquisition.md R168, R169, R171): where a worker comes from, one record for each
complete frame, and where every byte in flight goes. -/

namespace Sys2Proof.Machine

/-- Settles O51: a block without a worker has no step that needs one, and of the others OPEN_OK alone gives it one. -/
theorem onlyOpenOkStartsWorker : Obligations.OnlyOpenOkStartsWorker := by
  intro i s t h hnone hlive
  cases exec_cases h with
  | openOk hi hp ht => exact ⟨hi, hp, by simp [ht], by simp [ht]⟩
  | frame r hi hr hg ht => simp [(State.canFrameDone_iff.mp hg).1] at hnone
  | exp hi hg ht => simp [(State.canExp_iff.mp hg).1] at hnone
  | ack hi hg ht => simp [State.canAck_iff.mp hg] at hnone
  | loopTestRun hi hg ht => simp [(State.canLoopRun_iff.mp hg).1] at hnone
  | ioerr hi hg ht | rst hi ht | loopTestExit hi hg ht => exact absurd (by simp [ht]) hlive
  | rx b hi ht | connAccept hi hp ht | connRefuse hi hg hp ht | openFail hi hp ht | discIdle hi hp ht
  | discRunning hi hp ht | discAfterFault hi hp hd ht | discClosed hi hp ht | joinTo hi hg ht | byteTake hi hg ht
  | joinDone hi hg ht =>
    exact absurd (by simp [ht, hnone]) hlive

/-- A frame row completes only by finishing its frame, with a result that is not the fatal error's (R164, R222). -/
theorem exec_frameRow {i : Instr} {s t : State} (hi : isFrameRow i = true) (h : exec i s = .next t) :
    ∃ r, r ≠ .error .ioFatal ∧ t = s.finishFrame r := by
  cases exec_cases h
  case frame r _ hr _ ht => exact ⟨r, hr, ht⟩
  all_goals
    subst i
    cases hi

/-- Settles O53: the two ways a frame finishes. -/
theorem oneRecordPerFrame : Obligations.OneRecordPerFrame := by
  intro i s t hi h
  obtain ⟨r, hr, rfl⟩ := exec_frameRow hi h
  obtain ⟨e, -, hevt, hw, htrace⟩ | ⟨c, rfl, hevt, hw, htrace⟩ := s.finishFrame_cases r
  · exact .inl ⟨e, htrace, hevt, hw⟩
  · exact .inr ⟨c, fun hc => hr (hc ▸ rfl), htrace, hevt, hw⟩

/-- Only the frame buffer and the queue hold bytes in flight. -/
theorem State.inFlight_congr {s t : State} (hfb : t.fb = s.fb) (hq : t.rxq = s.rxq) : t.inFlight = s.inFlight := by
  rw [State.inFlight, hfb, hq, State.inFlight]

theorem State.inFlight_of_fb_empty {t : State} (hfb : t.fb = FrameBuffer.empty) : t.inFlight = t.rxq := by
  rw [State.inFlight, hfb, FrameBuffer.held_empty, List.nil_append]

theorem State.inFlight_of_rxq_nil {t : State} (hq : t.rxq = []) : t.inFlight = t.fb.held := by
  rw [State.inFlight, hq, List.append_nil]

/-- A byte that the receiver keeps is the last one in flight (R160). -/
theorem State.inFlight_receive (s : State) (b : Byte) :
    (s.receive b).inFlight = s.inFlight ++ [b] ∨ (s.receive b).inFlight = s.inFlight := by
  obtain ⟨-, -, ht⟩ | ⟨-, ht⟩ := s.receive_cases b
  · left
    rw [ht, State.inFlight, State.inFlight, State.qPush_fb, State.qPush_rxq, List.append_assoc]
  · exact .inr (congrArg State.inFlight ht)

/-- BYTE_TAKE moves a byte from the queue to the end of the window, which keeps the order of arrival (R163). -/
theorem Inv.inFlight_takeByte {s : State} (h : Inv s) (hg : s.canByteTake = true) :
    s.takeByte.inFlight = s.inFlight := by
  obtain ⟨-, hc, hq⟩ := State.canByteTake_iff.mp hg
  obtain ⟨b, rest, hrxq⟩ := List.exists_cons_of_ne_nil hq
  rw [State.takeByte_cons hrxq]
  simp only [State.inFlight, FrameBuffer.held_put hc h.cells, hrxq, List.append_assoc, List.singleton_append]

/-- Outside a read window the frame buffer holds no byte (R34). -/
theorem Inv.fb_eq_empty {s : State} (h : Inv s) (hw : s.wstate ≠ .wRead) : s.fb = FrameBuffer.empty :=
  FrameBuffer.eq_empty_of_filledTo_zero (h.noWindow hw ▸ h.cells)

/-- Settles O55: a window that ends gives up its bytes, a close gives up the queue, and every other instruction keeps
both, LOOP_TEST_RUN and OPEN_OK because the invariant leaves nothing for them to lose. -/
theorem byteAccounting : Obligations.ByteAccounting := by
  intro i s t hinv h
  cases exec_cases h with
  | frame r hi hr hg ht =>
    subst ht
    exact .inr (.inr (.inl ⟨.inl hi, by simp [State.inFlight_of_fb_empty]⟩))
  | exp hi hg ht =>
    subst ht
    exact .inr (.inr (.inl ⟨.inr (.inl hi), rfl⟩))
  | ioerr hi hg ht =>
    subst ht
    exact .inr (.inr (.inl ⟨.inr (.inr hi), by simp [State.inFlight_of_fb_empty]⟩))
  | joinDone hi hg ht =>
    subst ht
    exact .inr (.inr (.inr (.inl ⟨.inl hi, State.inFlight_of_rxq_nil rfl⟩)))
  | joinTo hi hg ht =>
    subst ht
    exact .inr (.inr (.inr (.inl ⟨.inr hi, State.inFlight_of_rxq_nil rfl⟩)))
  | rst hi ht =>
    subst ht
    exact .inr (.inr (.inr (.inr ⟨hi, rfl⟩)))
  | rx b hi ht =>
    subst hi ht
    obtain hkept | hlost := s.inFlight_receive b
    · exact .inr (.inl ⟨b, rfl, hkept⟩)
    · exact .inl ⟨hlost, rfl, by simp⟩
  | byteTake hi hg ht =>
    subst hi ht
    exact .inl ⟨hinv.inFlight_takeByte hg, rfl, by simp⟩
  | loopTestRun hi hg ht =>
    subst hi ht
    have hfb := hinv.fb_eq_empty (by simp [(State.canLoopRun_iff.mp hg).1])
    exact .inl ⟨State.inFlight_congr hfb.symm rfl, rfl, by simp⟩
  | openOk hi hp ht =>
    subst hi ht
    obtain ⟨-, -, -, hq⟩ := hinv.fresh (.inr hp)
    exact .inl ⟨State.inFlight_congr rfl hq.symm, rfl, by simp⟩
  | connAccept hi hp ht | connRefuse hi hg hp ht | openFail hi hp ht | discIdle hi hp ht | discRunning hi hp ht
  | discAfterFault hi hp hd ht | discClosed hi hp ht | ack hi hg ht | loopTestExit hi hg ht =>
    subst hi ht
    exact .inl ⟨rfl, rfl, by simp⟩

end Sys2Proof.Machine
end

section
/-! The command unit's instructions (45_lifecycle.md R190 to R199): the host's commands by phase, the port's answers, and the
two ends of a disconnect. -/

namespace Sys2Proof.Machine

/-- A host command is refused exactly while another one is outstanding (R27, R78). -/
theorem State.canCommand_iff_not_outstanding {s : State} :
    s.canCommand = true ↔ ¬ (s.phase = .connecting ∨ (s.phase = .stopping ∧ s.discPending = true)) := by
  rw [State.canCommand, Bool.not_eq_true', ← Bool.not_eq_true, State.cmdBusy_iff]

theorem exec_conn_of_idle {s : State} (hp : s.phase = .idle) :
    exec .conn s = .next ({ s with phase := .connecting }.emit .portOpenReq) := by
  have hg : s.canCommand = true := State.canCommand_iff.mpr (by simp [hp])
  exact (guarded_of hg).trans (by rw [if_pos hp])

theorem exec_conn_of_not_idle {s : State} (hg : s.canCommand = true) (hp : s.phase ≠ .idle) :
    exec .conn s = .next (s.emit (.doneConn false)) :=
  (guarded_of hg).trans (by rw [if_neg hp])

/-- A command that comes while another one is outstanding has no step. -/
theorem exec_command_of_outstanding {s : State}
    (h : s.phase = .connecting ∨ (s.phase = .stopping ∧ s.discPending = true)) :
    exec .conn s = .refused (.notEnabled "CONN") ∧ exec .disc s = .refused (.notEnabled "DISC") := by
  have hg : s.canCommand = false :=
    Bool.eq_false_of_not_eq_true fun hc => State.canCommand_iff_not_outstanding.mp hc h
  exact ⟨guarded_of_not hg, guarded_of_not hg⟩

/-- Settles O30: Idle accepts (R190), and the phases with no command outstanding answer that the connect failed (R191). -/
theorem connectAcceptedOnlyInIdle : Obligations.ConnectAcceptedOnlyInIdle := by
  intro s
  refine ⟨fun hp => ⟨exec_conn_of_idle hp, rfl⟩, ?_, fun h => (exec_command_of_outstanding h).1⟩
  rintro (hp | ⟨hp, hd⟩ | hp)
  · exact exec_conn_of_not_idle (State.canCommand_iff.mpr (by simp [hp])) (by simp [hp])
  · exact exec_conn_of_not_idle (State.canCommand_iff.mpr (by simp [hp, hd])) (by simp [hp])
  · exact exec_conn_of_not_idle (State.canCommand_iff.mpr (by simp [hp])) (by simp [hp])

/-- Settles O31: both answers of the port have the guard of a connect that waits for it. -/
theorem portAnswersConnect : Obligations.PortAnswersConnect := by
  intro s
  obtain ⟨hok, hokRefused⟩ := guarded_spec (m := "OPEN_OK")
    (t := { s with portOpen := true, rxq := [], running := true, wstate := .wCheck, phase := .running }.emit
      (.doneConn true)) (State.canOpen_iff (s := s))
  obtain ⟨hfail, hfailRefused⟩ := guarded_spec (m := "OPEN_FAIL")
    (t := { s with phase := .idle }.emit (.doneConn false)) (State.canOpen_iff (s := s))
  exact ⟨fun hp => ⟨hok hp, hfail hp⟩, fun hp => ⟨hokRefused hp, hfailRefused hp⟩⟩

theorem State.disconnect_of_idle {s : State} (hp : s.phase = .idle) :
    s.disconnect = { s with phase := .closed }.emit .doneDisc := by
  simp only [State.disconnect, hp]

theorem State.disconnect_of_running {s : State} (hp : s.phase = .running) :
    s.disconnect = { s with running := false, discPending := true, phase := .stopping } := by
  simp only [State.disconnect, hp]

theorem State.disconnect_of_stopping {s : State} (hp : s.phase = .stopping) :
    s.disconnect = { s with discPending := true } := by
  simp only [State.disconnect, hp]

theorem State.disconnect_of_closed {s : State} (hp : s.phase = .closed) : s.disconnect = s.emit .doneDisc := by
  simp only [State.disconnect, hp]

/-- An accepted disconnect acts by the phase. -/
theorem exec_disc_of {s t : State} (hg : s.canCommand = true) (ht : s.disconnect = t) : exec .disc s = .next t :=
  ht ▸ guarded_of hg

/-- Settles O32: one phase for each clause, and the guard's refusal while a command is outstanding. -/
theorem disconnectByPhase : Obligations.DisconnectByPhase := by
  intro s
  refine ⟨fun hp => ?idle, fun hp => ?running, fun ⟨hp, hd⟩ => ?stopping, fun hp => ?closed,
    fun h => (exec_command_of_outstanding h).2⟩
  case idle => exact exec_disc_of (State.canCommand_iff.mpr (by simp [hp])) (State.disconnect_of_idle hp)
  case running => exact exec_disc_of (State.canCommand_iff.mpr (by simp [hp])) (State.disconnect_of_running hp)
  case stopping => exact exec_disc_of (State.canCommand_iff.mpr (by simp [hp, hd])) (State.disconnect_of_stopping hp)
  case closed => exact exec_disc_of (State.canCommand_iff.mpr (by simp [hp])) (State.disconnect_of_closed hp)

/-- The close action as one update, with its two records together (R198). -/
theorem State.closePort_eq (s : State) :
    s.closePort =
      { s with
        portOpen := false, rxq := [], discPending := false, phase := .closed
        trace := s.trace ++ [.portClose, .doneDisc] } := by
  simp [State.closePort, State.emit]

/-- Settles O33: the two ends of a disconnect are the same close action, and the worker decides which of them is enabled. -/
theorem disconnectClosesPort : Obligations.DisconnectClosesPort := by
  intro s t
  have hclose : s.closePort = t := s.closePort_eq
  obtain ⟨hdone, hdoneRefused⟩ := guarded_spec (m := "JOIN_DONE") (t := s.closePort) (State.canJoinDone_iff (s := s))
  obtain ⟨hto, htoRefused⟩ := guarded_spec (m := "JOIN_TO") (t := s.closePort) (State.canJoinTo_iff (s := s))
  exact ⟨fun h => hclose ▸ hdone h, fun h => hclose ▸ hto h, hdoneRefused, htoRefused⟩

end Sys2Proof.Machine
end

section
/-! How a connection ends (45_lifecycle.md R199, R200): a waiting disconnect completes, and nothing but a reset leads out of
phase Closed. -/

namespace Sys2Proof.Machine

/-- A disconnect whose worker has exited is closed by the next step, as long as no stimulus waits (R198). -/
theorem step_of_canJoinDone {s : State} (hg : s.canJoinDone = true) (hs : s.script = []) :
    step s = .next s.closePort := by
  obtain ⟨-, -, hstep, -, -⟩ := oneInternalStepAtMost s .joinDone hg
  exact (hstep (.inl hs)).trans (guarded_of hg)

/-- At its loop test a worker that is to stop exits in the next step, as long as no stimulus waits (R162). -/
theorem step_of_canLoopExit {s : State} (hg : s.canLoopExit = true) (hs : s.script = []) :
    step s = .next { s with wstate := .wNone } := by
  obtain ⟨-, -, hstep, -, -⟩ := oneInternalStepAtMost s .loopTestExit hg
  exact (hstep (.inl hs)).trans (guarded_of hg)

theorem State.closePort_trace_eq (s : State) : s.closePort.trace = s.trace ++ [.portClose, .doneDisc] := by
  rw [State.closePort_eq]

/-- Settles O59: the close action is one step away once the worker is gone, a worker at its loop test goes in one step
because a stopping block does not run (R34), and JOIN_TO waits for no worker. -/
theorem disconnectCompletes : Obligations.DisconnectCompletes := by
  intro s hinv hp hd
  refine ⟨fun hw hs => ?noWorker, fun hw hs => ?loopTest, fun hw => ?joinTo⟩
  case noWorker =>
    have hg : s.canJoinDone = true := State.canJoinDone_iff.mpr ⟨hp, hd, hw⟩
    exact ⟨s.closePort, step_of_canJoinDone hg hs, rfl, s.closePort_trace_eq⟩
  case loopTest =>
    obtain ⟨hstopped, -⟩ := hinv.stopping hp
    have hexit : s.canLoopExit = true := State.canLoopExit_iff.mpr ⟨hw, hstopped⟩
    have hjoin : ({ s with wstate := .wNone } : State).canJoinDone = true := State.canJoinDone_iff.mpr ⟨hp, hd, rfl⟩
    exact ⟨_, _, step_of_canLoopExit hexit hs, step_of_canJoinDone hjoin hs, rfl, State.closePort_trace_eq _⟩
  case joinTo =>
    have hg : s.canJoinTo = true := State.canJoinTo_iff.mpr ⟨hp, hd, hw⟩
    exact ⟨s.closePort, guarded_of hg, rfl, s.closePort_trace_eq⟩

/-- Of the moves between phases, RST alone leaves Closed (R250). -/
theorem exec_keeps_closed {i : Instr} {s t : State} (hp : s.phase = .closed) (hrst : i ≠ .rst)
    (h : exec i s = .next t) : t.phase = .closed := by
  by_contra hne
  have hmove := phaseMovesAreListed i s t h (hp ▸ hne)
  simp [hp, hrst] at hmove

/-- LOOP_TEST_RUN alone opens a read window, and only while `running` is set (R161). -/
theorem exec_opens_window {i : Instr} {s t : State} (h : exec i s = .next t) (hread : t.wstate = .wRead)
    (hnot : s.wstate ≠ .wRead) : i = .loopTestRun ∧ s.running = true := by
  cases exec_cases h with
  | loopTestRun hi hg ht => exact ⟨hi, (State.canLoopRun_iff.mp hg).2⟩
  | frame r hi hr hg ht => exact absurd (State.canFrameDone_iff.mp hg).1 hnot
  | exp hi hg ht => exact absurd (State.canExp_iff.mp hg).1 hnot
  | ioerr hi hg ht => exact absurd (State.canIoerr_iff.mp hg).1 hnot
  | byteTake hi hg ht => exact absurd (State.canByteTake_iff.mp hg).1 hnot
  | openOk hi hp ht | ack hi hg ht | rst hi ht | loopTestExit hi hg ht => simp [ht] at hread
  | rx b hi ht | connAccept hi hp ht | connRefuse hi hg hp ht | openFail hi hp ht | discIdle hi hp ht
  | discRunning hi hp ht | discAfterFault hi hp hd ht | discClosed hi hp ht | joinTo hi hg ht | joinDone hi hg ht =>
    exact absurd (by simpa [ht] using hread) hnot

/-- Settles O58: the phase stays Closed, the invariant says what that means, and a worker that outlives the close finds
`running` clear at its loop test. -/
theorem orphanNeverReadsAgain : Obligations.OrphanNeverReadsAgain := by
  intro i s t hinv hp hrst h
  have hclosed := exec_keeps_closed hp hrst h
  obtain ⟨hrun, hopen, -, hq⟩ := (exec_keeps_inv hinv h).closed hclosed
  refine ⟨hclosed, hrun, hopen, hq, fun hread => ?_⟩
  by_contra hnot
  obtain ⟨-, hrunning⟩ := exec_opens_window h hread hnot
  obtain ⟨hstopped, -⟩ := hinv.closed hp
  simp [hstopped] at hrunning

end Sys2Proof.Machine
end

section
/-! What leaves the block's lifecycle alone: a complete frame (60_exceptions.md R221), and a step with nothing to run
(R237). -/

namespace Sys2Proof.Machine

/-- Settles O52: a frame finishes with an event or a drop, and neither is about the lifecycle. -/
theorem frameRowsKeepLifecycle : Obligations.FrameRowsKeepLifecycle := by
  intro i s t hi h
  obtain ⟨r, -, rfl⟩ := exec_frameRow hi h
  exact ⟨s.finishFrame_phase r, s.finishFrame_running r, s.finishFrame_portOpen r, s.finishFrame_discPending r,
    s.finishFrame_fatalReported r, s.finishFrame_rxq r, s.finishFrame_cfg r⟩

theorem State.fetch_eq_none {s : State} (hn : s.nextInternal = none) (hw : s.script = []) : s.fetch = none := by
  simp only [State.fetch, hn, hw]

theorem step_of_fetch_none {s : State} (h : s.fetch = none) : step s = .next s := by
  simp only [step, h]

/-- Settles O43: there is no code to fetch. -/
theorem stepWaitsWithoutInput : Obligations.StepWaitsWithoutInput :=
  fun _ hw hn => step_of_fetch_none (State.fetch_eq_none hn hw)

end Sys2Proof.Machine
end

section
/-! The timed wrapper beside the untimed step (60_exceptions.md R231, R232, 70_reset_and_hazards.md R257): which step it
takes and which timers that starts, which expiries it refuses, and the bound on a disconnect's wait. -/

namespace Sys2Proof.Machine

/-- Only its own code decodes to an instruction that meets its row's side condition. -/
theorem decode_eq_iff_eq_encode {c : Code} {i : Instr} (hwf : i.wellFormed = true) : decode c = i ↔ c = encode i := by
  rw [decode_eq_iff, and_iff_left hwf, eq_comm]

theorem State.fetched_code_iff {s t : State} {c : Code} {i : Instr} (hf : s.fetch = some (c, t))
    (hwf : i.wellFormed = true) : s.fetch.map Prod.fst = some (encode i) ↔ decode c = i := by
  rw [decode_eq_iff_eq_encode hwf, hf, Option.map_some, Option.some_inj]

theorem TimedState.act_of_fetch_none {t : TimedState} (hf : t.base.fetch = none) : t.act = .next t :=
  TimedState.act_next.mpr (.inl ⟨hf, rfl⟩)

/-- With the fetched code at hand: the untimed step of that code, no expiry before its time, and the timers it starts. -/
theorem TimedState.act_next_of_fetch {t u : TimedState} {c : Code} {s : State} (hf : t.base.fetch = some (c, s)) :
    t.act = .next u ↔
      (decode c = .exp → t.windowOver = true) ∧ (decode c = .joinTo → t.joinOver = true) ∧
        ∃ b, exec (decode c) s = .next b ∧ u = t.after (decode c) b := by
  rw [TimedState.act_next]
  constructor
  · rintro (⟨hnone, -⟩ | ⟨c', s', b, hf', hexp, hjoin, hx, hu⟩)
    · cases hf.symm.trans hnone
    · cases hf.symm.trans hf'
      exact ⟨hexp, hjoin, b, hx, hu⟩
  · rintro ⟨hexp, hjoin, b, hx, hu⟩
    exact .inr ⟨c, s, b, hf, hexp, hjoin, hx, hu⟩

/-- A timed step takes the untimed one, in no time. -/
theorem TimedState.act_refines_step {t u : TimedState} (h : t.act = .next u) :
    step t.base = .next u.base ∧ u.now = t.now := by
  obtain ⟨hf, rfl⟩ | ⟨c, s, b, hf, -, -, hx, rfl⟩ := TimedState.act_next.mp h
  · exact ⟨step_of_fetch_none hf, rfl⟩
  · exact ⟨(step_of_fetch hf).trans hx, rfl⟩

/-- R231: no window expires before its time. -/
theorem TimedState.windowOver_of_act_exp {t u : TimedState} {s : State} (h : t.act = .next u)
    (hf : t.base.fetch = some (encode .exp, s)) : t.tOpen + 1000 ≤ t.now := by
  obtain ⟨hexp, -, -⟩ := (TimedState.act_next_of_fetch hf).mp h
  exact TimedState.windowOver_iff.mp (hexp (decodeEncodeRoundTrip .exp rfl))

/-- R232: no wait for the worker is given up before its time. -/
theorem TimedState.joinOver_of_act_joinTo {t u : TimedState} {s : State} (h : t.act = .next u)
    (hf : t.base.fetch = some (encode .joinTo, s)) : t.tDisc + Config.tJoinMs ≤ t.now := by
  obtain ⟨-, hjoin, -⟩ := (TimedState.act_next_of_fetch hf).mp h
  exact TimedState.joinOver_iff.mp (hjoin (decodeEncodeRoundTrip .joinTo rfl))

/-- LOOP_TEST_RUN starts the window's timer, and a DISC that waits the join timer. -/
theorem TimedState.act_timers {t u : TimedState} (h : t.act = .next u) :
    u.tOpen = (if t.base.fetch.map Prod.fst = some (encode .loopTestRun) then t.now else t.tOpen) ∧
      u.tDisc =
        if t.base.fetch.map Prod.fst = some (encode .disc) ∧ u.base.discPending = true then t.now else t.tDisc := by
  obtain ⟨hf, rfl⟩ | ⟨c, s, b, hf, -, -, -, rfl⟩ := TimedState.act_next.mp h
  · simp [hf]
  · have hrun := State.fetched_code_iff (i := .loopTestRun) hf rfl
    have hdisc := State.fetched_code_iff (i := .disc) hf rfl
    simp only [hrun, hdisc, TimedState.after_tOpen, TimedState.after_tDisc, TimedState.after_base, and_self]

/-- An untimed step is a timed one unless it is an expiry before its time. -/
theorem TimedState.act_of_step {t : TimedState} {b : State} (hstep : step t.base = .next b)
    (hexp : ∀ s, t.base.fetch = some (encode .exp, s) → t.tOpen + 1000 ≤ t.now)
    (hjoin : ∀ s, t.base.fetch = some (encode .joinTo, s) → t.tDisc + Config.tJoinMs ≤ t.now) :
    ∃ u, t.act = .next u ∧ u.base = b := by
  cases hf : t.base.fetch with
  | none =>
    obtain rfl : t.base = b := Host.Outcome.next.inj ((step_of_fetch_none hf).symm.trans hstep)
    exact ⟨t, TimedState.act_of_fetch_none hf, rfl⟩
  | some p =>
    obtain ⟨c, s⟩ := p
    have hx : exec (decode c) s = .next b := (step_of_fetch hf).symm.trans hstep
    refine ⟨t.after (decode c) b, (TimedState.act_next_of_fetch hf).mpr ⟨fun hc => ?_, fun hc => ?_, b, hx, rfl⟩, rfl⟩
    · obtain rfl := (decode_eq_iff_eq_encode rfl).mp hc
      exact TimedState.windowOver_iff.mpr (hexp s hf)
    · obtain rfl := (decode_eq_iff_eq_encode rfl).mp hc
      exact TimedState.joinOver_iff.mpr (hjoin s hf)

theorem TimedState.act_early_exp {t : TimedState} {s : State} (hf : t.base.fetch = some (encode .exp, s))
    (hearly : t.now < t.tOpen + 1000) : t.act = .refused (.notDue "EXP") := by
  have hopen : t.windowOver = false := decide_eq_false hearly.not_ge
  have hc : decode (encode .exp) = .exp := decodeEncodeRoundTrip .exp rfl
  simp only [TimedState.act, hf, hc, hopen, and_self, if_true]

theorem TimedState.act_early_joinTo {t : TimedState} {s : State} (hf : t.base.fetch = some (encode .joinTo, s))
    (hearly : t.now < t.tDisc + Config.tJoinMs) : t.act = .refused (.notDue "JOIN_TO") := by
  have hwait : t.joinOver = false := decide_eq_false hearly.not_ge
  have hc : decode (encode .joinTo) = .joinTo := decodeEncodeRoundTrip .joinTo rfl
  simp only [TimedState.act, hf, hc, hwait, reduceCtorEq, false_and, and_self, if_true, if_false]

/-- R231, R232, R257: time passes unless an expiry is due or a disconnect's wait is at its end. -/
theorem TimedState.tick_eq (t : TimedState) :
    t.tick =
      if (t.base.canExp = true ∧ t.tOpen + 1000 ≤ t.now) ∨
          (t.base.phase = .stopping ∧ t.base.discPending = true ∧ t.tDisc + Config.tJoinMs ≤ t.now) then
        .refused .deadlinePassed
      else .next { t with now := t.now + 1 } := by
  simp only [TimedState.tick, Bool.or_eq_true, TimedState.expDue_iff, TimedState.joinDue_iff]

/-- DISC alone makes a disconnect wait (R195, R196). -/
theorem exec_starts_wait {i : Instr} {s t : State} (h : exec i s = .next t) (hd : t.discPending = true)
    (hnot : s.discPending ≠ true) : i = .disc := by
  cases exec_cases h
  case discRunning hi _ _ | discAfterFault hi _ _ _ => exact hi
  case joinTo ht | joinDone ht | rst ht => simp [ht] at hd
  all_goals
    rename_i ht
    exact absurd (by simpa [ht] using hd) hnot

/-- No step starts a timer in the future. -/
theorem TimedState.after_started {t : TimedState} (h : t.tOpen ≤ t.now ∧ t.tDisc ≤ t.now) (i : Instr) (b : State) :
    (t.after i b).tOpen ≤ t.now ∧ (t.after i b).tDisc ≤ t.now := by
  obtain ⟨hopen, hdisc⟩ := h
  rw [TimedState.after_tOpen, TimedState.after_tDisc]
  constructor <;> split
  · exact le_rfl
  · exact hopen
  · exact le_rfl
  · exact hdisc

/-- A disconnect that waits after a step has just begun to, with its timer, or waited before. -/
theorem TimedInv.act {t u : TimedState} (h : TimedInv t) (hact : t.act = .next u) : TimedInv u := by
  obtain ⟨hstep, -⟩ := TimedState.act_refines_step hact
  have hbase : Inv u.base := stepKeepsInvariant _ _ h.base hstep
  obtain ⟨-, rfl⟩ | ⟨c, s, b, hf, -, -, hx, rfl⟩ := TimedState.act_next.mp hact
  · exact h
  refine ⟨hbase, TimedState.after_started h.started _ _, fun hd => ?wait⟩
  rw [TimedState.after_now, TimedState.after_tDisc]
  split
  case isTrue hstart => exact Nat.le_add_right _ _
  case isFalse hstart =>
    apply h.wait
    by_contra hnot
    obtain ⟨ws, ts, rfl⟩ := State.fetch_inputs hf
    exact hstart ⟨exec_starts_wait hx hd hnot, hd⟩

/-- A disconnect waits in phase Stopping (R34), where no time passes once its wait is at its end (R257). -/
theorem TimedInv.tick {t u : TimedState} (h : TimedInv t) (htick : t.tick = .next u) : TimedInv u := by
  obtain ⟨-, hjoin, rfl⟩ := TimedState.tick_next.mp htick
  obtain ⟨hopen, hdisc⟩ := h.started
  refine ⟨h.base, ⟨Nat.le_succ_of_le hopen, Nat.le_succ_of_le hdisc⟩, fun hd => ?wait⟩
  by_contra hlate
  have hover : t.tDisc + Config.tJoinMs ≤ t.now := Nat.le_of_lt_succ (Nat.lt_of_not_le hlate)
  have hdue : t.joinDue = true := TimedState.joinDue_iff.mpr ⟨h.base.pending hd, hd, hover⟩
  simp [hjoin] at hdue

theorem timedInv_reset : TimedInv TimedState.reset :=
  ⟨resetMeetsInvariant, ⟨le_rfl, le_rfl⟩, nofun⟩

/-- Settles O60: a timed step refines the untimed one and leaves out only expiries before their time, a tick stops at what
is due, and both keep the bound on a disconnect's wait. -/
theorem timedStepRefinesStep : Obligations.TimedStepRefinesStep := by
  refine ⟨fun t u h => ?refines, fun t b => TimedState.act_of_step,
    fun t s => ⟨TimedState.act_early_exp, TimedState.act_early_joinTo⟩, TimedState.tick_eq, Config.tJoinMs_pos,
    timedInv_reset, fun t u hinv h => h.elim hinv.act hinv.tick⟩
  case refines =>
    obtain ⟨hstep, hnow⟩ := TimedState.act_refines_step h
    obtain ⟨hopen, hdisc⟩ := TimedState.act_timers h
    exact ⟨hstep, hnow, fun _ => TimedState.windowOver_of_act_exp h, fun _ => TimedState.joinOver_of_act_joinTo h,
      hopen, hdisc⟩

end Sys2Proof.Machine
end

section
/-! Reset (70_reset_and_hazards.md R250): what RST answers in every state, with the values of 10_state.md R35. -/

namespace Sys2Proof.Machine

/-- RST has no guard and no record (R250). -/
theorem exec_rst (s : State) : exec .rst s = .next s.toReset := rfl

/-- A reset state with its elements written out: the reset values are those of R35, whatever the state was before. -/
theorem State.toReset_eq (s : State) :
    s.toReset =
      { phase := .idle, wstate := .wNone, running := false, portOpen := false, discPending := false
        fatalReported := false, rxq := [], cnt := 0, fb := ⟨none, none, none, none⟩, evt := none
        trace := s.trace, cfg := s.cfg, script := s.script, sched := s.sched } := by
  obtain ⟨hphase, hwstate, hrunning, hopen, hpending, hfatal, hrxq, hcnt, hfb, hevt, -⟩ := resetStateValues
  simp only [State.toReset, hphase, hwstate, hrunning, hopen, hpending, hfatal, hrxq, hcnt, hfb, hevt]

/-- Settles O34: RST always steps to the reset state, whose elements have the values of R35. -/
theorem resetGivesFreshInstance : Obligations.ResetGivesFreshInstance :=
  fun s => (exec_rst s).trans (congrArg Host.Outcome.next s.toReset_eq)

end Sys2Proof.Machine
end
